-- ==== Sys2Proof/Word.lean ====
section
/-! DEFINITION. The fixed-width types of the engine: spec 00_scope.md R7 and R9 to R12. Every value has a declared width and is
unsigned; a leading zero byte is ordinary content. -/

namespace Sys2Proof

/-- A register word of the 32-bit host bus (R8). -/
abbrev Word := BitVec 32

/-- A 64-bit DES block, and every other 64-bit value (R7). -/
abbrev Block := BitVec 64

/-- A 128-bit key: BDK, IPEK, working key, session key (R7). -/
abbrev Key := BitVec 128

/-- The 80-bit Key Serial Number: 59 bits of key set and device ID, 21 bits of transaction counter (R7). -/
abbrev Ksn := BitVec 80

/-- The 21-bit walk cursor (R7, R44). -/
abbrev Cursor := BitVec 21

/-- An 8-bit adapter failure code (R140). -/
abbrev FailCode := BitVec 8

end Sys2Proof
end

