-- ==== Sys2Proof/Syntax.lean ====
section
/-! DEFINITION. The commands of the engine, one constructor per row of spec/opcode_table.json (30_encoding.md R102), and the raw fields
of a command word (R101). -/

namespace Sys2Proof

/-- The variant tag of the V bit and of VAR (R101, R108): 0 is PIN (PEK), 1 is Data (DEK). -/
inductive Variant where
  | pin
  | data
  deriving DecidableEq, Repr

/-- A legal command. A command has no register numbers and no immediates (R107): the variant is its only operand (R108). -/
inductive Instr where
  /-- CREATE_IPEK, OP 0x01 -/
  | createIpek
  /-- DERIVE_KEY, OP 0x02 -/
  | deriveKey
  /-- GENERATE_KEY, OP 0x03 -/
  | generateKey
  /-- ENCRYPT_REGISTER, OP 0x04 -/
  | encryptRegister
  /-- SESSION_PEK, OP 0x05 -/
  | sessionPek
  /-- SESSION_DEK, OP 0x06 -/
  | sessionDek
  /-- SESSION_KEY, OP 0x07 -/
  | sessionKey (v : Variant)
  /-- ENCRYPT, OP 0x08 -/
  | encrypt (v : Variant)
  /-- DECRYPT, OP 0x09 -/
  | decrypt (v : Variant)
  /-- CLEAR, OP 0x0F -/
  | clear
  deriving DecidableEq, Repr

/-- The three fields of a command word (R101). -/
structure Fields where
  /-- RSV, bits 31..9 -/
  rsv : BitVec 23
  /-- V, bit 8 -/
  v : Variant
  /-- OP, bits 7..0 -/
  op : BitVec 8
  deriving DecidableEq, Repr

/-- Why a command word is illegal (R103 to R105). -/
inductive Illegal where
  /-- a bit of RSV is set (R105) -/
  | reservedBits
  /-- OP is a reserved operation code (R104) -/
  | reservedOp
  /-- V = 1 with an OP that takes no variant (R103) -/
  | variantNotTaken
  deriving DecidableEq, Repr

end Sys2Proof
end

