-- ==== Sys2Proof/WellFormed.lean ====
section
/-! DEFINITION. When the fields of a command word make a legal command: 30_encoding.md R103 to R106. An Instr is legal by its type, so the
checks stand on the fields. -/

namespace Sys2Proof

/-- The defined operation codes: 0x01 to 0x09 and 0x0F; every other is reserved (R102, R104). -/
def Fields.opDefined (f : Fields) : Bool :=
  (1 ≤ f.op.toNat && f.op.toNat ≤ 9) || f.op.toNat == 15

/-- The operation codes that take a variant: SESSION_KEY, ENCRYPT, DECRYPT (R103). -/
def Fields.takesVariant (f : Fields) : Bool :=
  7 ≤ f.op.toNat && f.op.toNat ≤ 9

/-- The checks of R106 in its order, each failing under its own name. -/
def Fields.check (f : Fields) : Except Illegal Unit :=
  if f.rsv ≠ 0 then .error .reservedBits
  else if f.opDefined = false then .error .reservedOp
  else if f.v = .data ∧ f.takesVariant = false then .error .variantNotTaken
  else .ok ()

/-- The fields make a legal command. -/
def Fields.wf (f : Fields) : Bool :=
  match f.check with
  | .ok _ => true
  | .error _ => false

end Sys2Proof
end

