-- ==== Sys2Proof/Decode.lean ====
section
/-! DEFINITION. Decoding and encoding of the 32-bit command word: 30_encoding.md R100 to R106. -/

namespace Sys2Proof

/-- The variant of a V bit (R101, R108). -/
def variantOf (b : Bool) : Variant := if b then .data else .pin

/-- The V bit of a variant (R101). -/
def variantBit (v : Variant) : BitVec 1 :=
  match v with
  | .pin => 0
  | .data => 1

/-- The fields of a command word: RSV = w[31:9], V = w[8], OP = w[7:0] (R101). -/
def fieldsOf (w : Word) : Fields :=
  { rsv := w.extractLsb' 9 23, v := variantOf (w.getLsbD 8), op := w.extractLsb' 0 8 }

/-- The word of the three fields, most significant field first (R101). -/
def wordOf (f : Fields) : Word :=
  f.rsv ++ variantBit f.v ++ f.op

/-- The command of an operation code (R102); V matters only to SESSION_KEY, ENCRYPT and DECRYPT. -/
def commandOf (op : BitVec 8) (v : Variant) : Option Instr :=
  match op.toNat with
  | 0x01 => some .createIpek
  | 0x02 => some .deriveKey
  | 0x03 => some .generateKey
  | 0x04 => some .encryptRegister
  | 0x05 => some .sessionPek
  | 0x06 => some .sessionDek
  | 0x07 => some (.sessionKey v)
  | 0x08 => some (.encrypt v)
  | 0x09 => some (.decrypt v)
  | 0x0F => some .clear
  | _ => none

/-- Decoding, total on every word; an illegal word is refused under the name of the check it fails (R106). -/
def decode (w : Word) : Except Illegal Instr :=
  let f := fieldsOf w
  match f.check with
  | .error e => .error e
  | .ok _ =>
    match commandOf f.op f.v with
    | some i => .ok i
    | none => .error .reservedOp

/-- The operation code of a command (R102). -/
def Instr.opcode (i : Instr) : BitVec 8 :=
  match i with
  | .createIpek => 0x01
  | .deriveKey => 0x02
  | .generateKey => 0x03
  | .encryptRegister => 0x04
  | .sessionPek => 0x05
  | .sessionDek => 0x06
  | .sessionKey _ => 0x07
  | .encrypt _ => 0x08
  | .decrypt _ => 0x09
  | .clear => 0x0F

/-- The variant a command carries: PIN for a command that takes none, whose V is 0 (R103, R108). -/
def Instr.variant (i : Instr) : Variant :=
  match i with
  | .sessionKey v => v
  | .encrypt v => v
  | .decrypt v => v
  | .createIpek => .pin
  | .deriveKey => .pin
  | .generateKey => .pin
  | .encryptRegister => .pin
  | .sessionPek => .pin
  | .sessionDek => .pin
  | .clear => .pin

/-- The fields of a command: RSV is 0 (R105). -/
def Instr.fields (i : Instr) : Fields := { rsv := 0, v := i.variant, op := i.opcode }

/-- The command word of a command (R101, R102). -/
def encode (i : Instr) : Word := wordOf i.fields

/-- What the decoder reads from a table row's bits: a command is one 32-bit bus write and never longer, so the bits are the
word (R100), and a number that does not fit one word is no command word. -/
def decodeTableWord (nbits w : Nat) : Option Instr :=
  if nbits ≤ 32 ∧ w < 2 ^ 32 then
    match decode (BitVec.ofNat 32 w) with
    | .ok i => some i
    | .error _ => none
  else none

end Sys2Proof
end

