-- ==== Sys2Proof/Config.lean ====
section
/-! DEFINITION. What is fixed for one machine and left open by the spec: the parameters ADAPTER, DBUF_BYTES and BASE of 00_scope.md R8,
as plain data, and the one uninterpreted function of the model. The cipher port's requests and responses (R140) stand here
because a table of them is part of the parameter. -/

namespace Sys2Proof

/-- A request on the cipher port (R140): a single-DES encryption with a 64-bit key, or a triple-DES encryption or decryption with
a 128-bit key, of one 64-bit block. -/
inductive Request where
  | desE (key block : Block)
  | tdesE (key : Key) (block : Block)
  | tdesD (key : Key) (block : Block)
  deriving DecidableEq, Repr

/-- The adapter's answer (R140): a block, or an 8-bit failure code. -/
inductive Response where
  | ok (r : Block)
  | fail (x : FailCode)
  deriving DecidableEq, Repr, Inhabited

/-- What stands behind the cipher port where no table row answers (R3, R8 (a); log 3 and log 5). -/
inductive Backend where
  /-- the reference adapter of R145 -/
  | reference
  /-- an adapter that answers every request with the same failure (95_test_vectors.md V20) -/
  | alwaysFail (code : FailCode)
  /-- an adapter of which nothing is known but that it is a function (93_implementation_defined.md I1) -/
  | unknown
  deriving DecidableEq, Repr

/-- The parameter ADAPTER as plain data (R144): a finite table of answers over a backend. Whether a request is ever answered at all is no part of
it (R147; log 8). -/
structure Adapter where
  table : List (Request × Response)
  backend : Backend
  deriving DecidableEq, Repr

/-- The parameters of R8. -/
structure Params where
  /-- DBUF_BYTES, the size of each data buffer (R8 (b)) -/
  dbufBytes : Nat
  /-- BASE, the bus address of the register window (R8 (c)) -/
  base : Nat
  /-- ADAPTER (R8 (a)) -/
  adapter : Adapter
  deriving DecidableEq, Repr

/-- The function of the unknown backend: uninterpreted, so a statement about it holds whatever it is (log 5). -/
opaque Config.unknownAdapter : Request → Response

end Sys2Proof
end

