-- ==== Sys2Proof/Machine/State.lean ====
section
/-! DEFINITION. The state of the engine: every register, flag, mask, buffer and working register of spec 10_state.md, as plain data, with
the host's inputs still to come and what the host got back; the reasons a step can stop; and the state after reset (R51). -/

namespace Sys2Proof.Machine

/-- The sequencer's phase register PH (R45). -/
inductive Phase where
  | idle
  | ipekL
  | ipekR
  | walk
  | dekL
  | dekR
  | data
  | gen
  | ereg
  deriving DecidableEq, Repr

/-- The error codes of STATUS.ERRCODE (60_exceptions.md R241); codes 6 to 15 are never written. -/
inductive ErrCode where
  /-- 0 NONE -/
  | none
  /-- 1 INVALID_ARGUMENT (R242) -/
  | invalidArgument
  /-- 2 CIPHER_PRECONDITION (R243) -/
  | cipherPrecondition
  /-- 3 ADAPTER_FAILURE (R244) -/
  | adapterFailure
  /-- 4 ILLEGAL_COMMAND (R245) -/
  | illegalCommand
  /-- 5 LENGTH_RANGE (R246) -/
  | lengthRange
  deriving DecidableEq, Repr

/-- The operand registers the host writes, with their write masks (R37, R39 to R41, R43). They persist between commands (R16). -/
structure Operands where
  /-- K_IN (R39) -/
  kIn : Key
  /-- KSN (R40) -/
  ksn : Ksn
  /-- REG (R41) -/
  reg : Block
  /-- LEN[15:0] (R37) -/
  len : BitVec 16
  /-- KIN_WM (R43) -/
  kinWm : BitVec 4
  /-- KSN_WM (R43) -/
  ksnWm : BitVec 3
  /-- REG_WM (R43) -/
  regWm : BitVec 2
  deriving DecidableEq, Repr

/-- The hidden working registers and the phase register (R44, R45). -/
structure Working where
  /-- PH -/
  ph : Phase
  /-- OPC, the opcode of the command in progress -/
  opc : BitVec 8
  /-- VAR, the variant of the command in progress -/
  var : Variant
  /-- CUR, the working key -/
  cur : Key
  /-- KREG, the KSN register of the walk -/
  kreg : Block
  /-- SR, the walk cursor -/
  sr : Cursor
  /-- TL, the left half of a two-call result -/
  tl : Block
  /-- SK, the session key of ENCRYPT and DECRYPT -/
  sk : Key
  /-- BI, the index of the next data block -/
  bi : BitVec 16
  /-- CV, the CBC chaining value -/
  cv : Block
  deriving DecidableEq, Repr

/-- The working registers after `scrub()` and after reset: all 0, PH = IDLE (40_command_lifecycle.md R138; 10_state.md R51). -/
def Working.scrubbed : Working :=
  { ph := .idle, opc := 0, var := .pin, cur := 0, kreg := 0, sr := 0, tl := 0, sk := 0, bi := 0, cv := 0 }

/-- A data buffer: pairs of a byte offset and a nonzero byte, offsets strictly rising; an offset not listed reads 0, the reset
value of every byte (R47, R51). -/
abbrev Memory := List Host.Cell

/-- The width of a host access (20_memory.md R73): 32 bits is the one the engine supports. -/
inductive AccessWidth where
  | w8
  | w16
  | w32
  | w64
  | burst
  deriving DecidableEq, Repr

/-- A host access on the bus: a read, or a write of a word, at a bus address. A write of another width carries its data too, but
none of it reaches the engine (R73, R76). -/
inductive Access where
  | read (addr : Nat) (width : AccessWidth)
  | write (addr : Nat) (width : AccessWidth) (data : Word)
  deriving DecidableEq, Repr

/-- What a host access gives back: the word read, the acceptance of a write, or a bus error (R76). -/
inductive BusResponse where
  | word (w : Word)
  | accepted
  | busError
  deriving DecidableEq, Repr

/-- What may happen next (40_command_lifecycle.md R130; log 1): one entry of the schedule. -/
inductive Input where
  /-- the host performs one access (20_memory.md R85) -/
  | access (a : Access)
  /-- the one of engine and adapter that is enabled takes one step (R130, R135, R141) -/
  | tick
  /-- the host polls STATUS until BUSY = 0 (30_encoding.md R111) -/
  | poll
  /-- the adapter will never answer the request that is pending (40_command_lifecycle.md R147; log 8); nothing if none is -/
  | noAnswer
  /-- the answer to a request that a reset abandoned arrives (70_reset_and_hazards.md R271) -/
  | lateAnswer (r : Response)
  /-- the reset input is asserted (70_reset_and_hazards.md R270) -/
  | reset
  deriving DecidableEq, Repr

/-- Why the machine stops. None of these is the answer of a command's meaning. -/
inductive Fault where
  /-- Raised by the default schedule: the pending request is never answered and no input is left, so no agent has an
  enabled step and BUSY stays 1 (40_command_lifecycle.md R147; 93_implementation_defined.md I6). Safe. -/
  | hang
  /-- Raised by the sequencer in a state no run reaches: PH and OPC hold a pair for which no rule gives a phase action (R135,
  R168, R213, R214; log 12). Safe. -/
  | noPhaseAction
  /-- Raised by the DATA phase in a state no run reaches: block BI lies outside the data buffers (20_memory.md R82; log 12).
  Safe. -/
  | bufferAddress
  deriving DecidableEq, Repr

/-- Why an instruction has no meaning. -/
inductive Refusal where
  /-- Raised by exec for a command whose meaning is not written yet. Safe. -/
  | notModelled (mnemonic : String)
  deriving DecidableEq, Repr

/-- The whole state (10_state.md R20). -/
structure State where
  /-- the parameters of 00_scope.md R8; no step changes them -/
  params : Params
  /-- CTRL.IRQ_EN (R34) -/
  irqEn : Bool
  /-- STATUS.BUSY (R35) -/
  busy : Bool
  /-- STATUS.DONE (R35) -/
  done : Bool
  /-- STATUS.ERR (R35) -/
  err : Bool
  /-- STATUS.WR_IGN (R35) -/
  wrIgn : Bool
  /-- STATUS.ERRCODE (R35) -/
  errCode : ErrCode
  /-- ERRINFO.FAIL_OP (R38) -/
  failOp : BitVec 8
  /-- ERRINFO.ADAPTER_CODE (R38) -/
  adapterCode : FailCode
  /-- K_IN, KSN, REG, LEN and the write masks (R37, R39 to R41, R43) -/
  ops : Operands
  /-- RESULT (R42) -/
  result : Key
  /-- DIN (R47) -/
  din : Memory
  /-- DOUT (R47) -/
  dout : Memory
  /-- the working registers and PH (R44, R45) -/
  work : Working
  /-- PEND (R46) -/
  pend : Option Request
  /-- the adapter will never answer the pending request (40_command_lifecycle.md R147; 93_implementation_defined.md I6; log 8) -/
  silent : Bool
  /-- the answers the suspended phase action has had, oldest first (40_command_lifecycle.md R141; log 9) -/
  answers : List Block
  /-- the schedule still to come (20_memory.md R85; log 1) -/
  inputs : List Input
  /-- what the host got back from its last access (20_memory.md R76; log 2) -/
  resp : Option BusResponse
  deriving DecidableEq, Repr

/-- The parameters of the machine after reset: DBUF_BYTES = 256 and the reference adapter, the spec's reference values (00_scope.md R8), and
BASE = 0 (DESIGN CHOICE, log 7). -/
def Params.reference : Params :=
  { dbufBytes := 256, base := 0, adapter := { table := [], backend := .reference } }

/-- The state after reset (10_state.md R51; 70_reset_and_hazards.md R270, R272): every register 0, PH idle, no request, no operand
valid. -/
def State.reset : State :=
  { params := Params.reference, irqEn := false, busy := false, done := false, err := false, wrIgn := false, errCode := .none,
    failOp := 0, adapterCode := 0,
    ops := { kIn := 0, ksn := 0, reg := 0, len := 0, kinWm := 0, ksnWm := 0, regWm := 0 },
    result := 0, din := [], dout := [], work := Working.scrubbed, pend := none, silent := false, answers := [], inputs := [], resp := none }

/-- What a step answers. -/
abbrev StepOutcome := Host.Outcome State Fault Refusal

end Sys2Proof.Machine
end

