-- ==== Sys2Proof/Machine/Ops.lean ====
section
/-! DEFINITION. The named operations over buffers and registers: data buffer reads and writes (20_memory.md R72), issue's clearing (R132),
scrubbing (R138), the two completions (R136, R137), the error return (60_exceptions.md R252), the write ignored while busy
(R139), and reset (R270). -/

namespace Sys2Proof.Machine

/-- The canonical form of a buffer: offsets strictly rising, and no listed byte equal to 0, what an unlisted offset reads as. -/
def Memory.wf : Memory → Bool
  | [] => true
  | [c] => c.2 != 0
  | c :: d :: m => c.2 != 0 && decide (c.1 < d.1) && Memory.wf (d :: m)

/-- `buf[a]`, one byte (R72). -/
def Memory.read : Memory → Nat → BitVec 8
  | [], _ => 0
  | c :: m, a => if c.1 = a then c.2 else Memory.read m a

/-- `buf[a] <- b`, one byte, keeping the canonical form (R72). -/
def Memory.put : Memory → Nat → BitVec 8 → Memory
  | [], a, b => if b = 0 then [] else [(a, b)]
  | c :: m, a, b =>
    if a < c.1 then
      if b = 0 then c :: m else (a, b) :: c :: m
    else if a = c.1 then
      if b = 0 then m else (a, b) :: m
    else c :: Memory.put m a b

/-- `MemRead(buf, off, 4)`, big-endian (R70, R72). -/
def Memory.read32 (m : Memory) (off : Nat) : Word :=
  m.read off ++ m.read (off + 1) ++ m.read (off + 2) ++ m.read (off + 3)

/-- `MemWrite(buf, off, 4, v)`, big-endian (R70, R72). -/
def Memory.write32 (m : Memory) (off : Nat) (v : Word) : Memory :=
  (((m.put off (v.extractLsb' 24 8)).put (off + 1) (v.extractLsb' 16 8)).put (off + 2) (v.extractLsb' 8 8)).put (off + 3)
    (v.extractLsb' 0 8)

/-- `MemRead(buf, off, 8)`: the two words, the first most significant (R72). -/
def Memory.read64 (m : Memory) (off : Nat) : Block :=
  m.read32 off ++ m.read32 (off + 4)

/-- `MemWrite(buf, off, 8, v)` (R72). -/
def Memory.write64 (m : Memory) (off : Nat) (v : Block) : Memory :=
  (m.write32 off (v.extractLsb' 32 32)).write32 (off + 4) (v.extractLsb' 0 32)

/-- The blocks `i, i+1, ..., i+n-1` of a buffer, in order (R72). -/
def Memory.blocks (m : Memory) (i : Nat) : Nat → List Block
  | 0 => []
  | n + 1 => m.read64 (8 * i) :: Memory.blocks m (i + 1) n

/-- Write blocks at `i, i+1, ...`, in ascending order (20_memory.md R82). -/
def Memory.writeBlocks (m : Memory) (i : Nat) : List Block → Memory
  | [] => m
  | b :: bs => Memory.writeBlocks (m.write64 (8 * i) b) (i + 1) bs

/-- What the host gets back from an access. -/
def State.respond (s : State) (r : Option BusResponse) : State := { s with resp := r }

/-- A host write ignored because the engine is busy: only WR_IGN changes (40_command_lifecycle.md R139). -/
def State.ignoreWrite (s : State) : State := { s with wrIgn := true }

/-- What issue clears before any check (R132). DOUT's bytes all become 0. -/
def State.clearOnIssue (s : State) : State :=
  { s with done := false, err := false, errCode := .none, failOp := 0, adapterCode := 0, result := 0, dout := [] }

/-- `scrub()` (R138), which also drops the answers of the phase action in progress. -/
def State.scrub (s : State) : State := { s with work := Working.scrubbed, answers := [] }

/-- Normal completion, `complete(v)` (R136). -/
def State.complete (s : State) (v : Option Key) : State :=
  { s with result := v.getD s.result, busy := false, done := true }.scrub

/-- Error completion, `raise E(info)`: the engine's only trap (R137; 60_exceptions.md R251). -/
def State.raise (s : State) (e : ErrCode) (failOp : BitVec 8) (adapterCode : FailCode) : State :=
  { s with result := 0, dout := [], busy := false, err := true, errCode := e, failOp := failOp,
           adapterCode := adapterCode }.scrub

/-- Error return: writing 1 to STATUS.ERR clears ERR, ERRCODE and ERRINFO together (10_state.md R35; 60_exceptions.md R252). -/
def State.ackError (s : State) : State :=
  { s with err := false, errCode := .none, failOp := 0, adapterCode := 0 }

/-- Reset: every piece of the engine's state takes its reset value (70_reset_and_hazards.md R270). The parameters are constants, and what
the host does next and last got back is the host's (log 16). -/
def State.blockReset (s : State) : State :=
  { State.reset with params := s.params, inputs := s.inputs, resp := s.resp }

/-- The first part of a start (R134): OPC, VAR, BUSY and PH. -/
def State.start (s : State) (opc : BitVec 8) (v : Variant) (ph : Phase) : State :=
  { s with busy := true, work := { s.work with opc := opc, var := v, ph := ph } }

end Sys2Proof.Machine
end

