-- ==== Sys2Proof/Machine/Operands.lean ====
section
/-! DEFINITION. The operand registers as the host writes and reads them word by word (10_state.md R37, R39 to R41), their write masks (R43),
the checks of issue (40_command_lifecycle.md R133), and issue itself (R131). -/

namespace Sys2Proof.Machine

/-- Word `j` of a 128-bit register, the most significant first (20_memory.md R71; 10_state.md R39, R42). -/
def keyWord (k : Key) (j : Fin 4) : Word :=
  match j with
  | 0 => k.extractLsb' 96 32
  | 1 => k.extractLsb' 64 32
  | 2 => k.extractLsb' 32 32
  | 3 => k.extractLsb' 0 32

/-- A 128-bit register with word `j` replaced. -/
def setKeyWord (k : Key) (j : Fin 4) (d : Word) : Key :=
  match j with
  | 0 => d ++ k.extractLsb' 0 96
  | 1 => k.extractLsb' 96 32 ++ d ++ k.extractLsb' 0 64
  | 2 => k.extractLsb' 64 64 ++ d ++ k.extractLsb' 0 32
  | 3 => k.extractLsb' 32 96 ++ d

/-- Word `j` of the KSN: KSN0 holds KSN[79:64] in its low half, and its high half reads 0 (R40). -/
def ksnWord (k : Ksn) (j : Fin 3) : Word :=
  match j with
  | 0 => (k.extractLsb' 64 16).setWidth 32
  | 1 => k.extractLsb' 32 32
  | 2 => k.extractLsb' 0 32

/-- The KSN with word `j` replaced; KSN0[31:16] is ignored (R40, 20_memory.md R77). -/
def setKsnWord (k : Ksn) (j : Fin 3) (d : Word) : Ksn :=
  match j with
  | 0 => d.extractLsb' 0 16 ++ k.extractLsb' 0 64
  | 1 => k.extractLsb' 64 16 ++ d ++ k.extractLsb' 0 32
  | 2 => k.extractLsb' 32 48 ++ d

/-- Word `j` of REG (R41). -/
def regWord (r : Block) (j : Fin 2) : Word :=
  match j with
  | 0 => r.extractLsb' 32 32
  | 1 => r.extractLsb' 0 32

/-- REG with word `j` replaced (R41). -/
def setRegWord (r : Block) (j : Fin 2) (d : Word) : Block :=
  match j with
  | 0 => d ++ r.extractLsb' 0 32
  | 1 => r.extractLsb' 32 32 ++ d

/-- A write mask with bit `j` set (R43). -/
def setMaskBit {n : Nat} (m : BitVec n) (j : Nat) : BitVec n := m ||| BitVec.twoPow n j

/-- An accepted write of a K_IN word (R39, R43). -/
def Operands.writeKIn (o : Operands) (j : Fin 4) (d : Word) : Operands :=
  { o with kIn := setKeyWord o.kIn j d, kinWm := setMaskBit o.kinWm j }

/-- An accepted write of a KSN word (R40, R43). -/
def Operands.writeKsn (o : Operands) (j : Fin 3) (d : Word) : Operands :=
  { o with ksn := setKsnWord o.ksn j d, ksnWm := setMaskBit o.ksnWm j }

/-- An accepted write of a REG word (R41, R43). -/
def Operands.writeReg (o : Operands) (j : Fin 2) (d : Word) : Operands :=
  { o with reg := setRegWord o.reg j d, regWm := setMaskBit o.regWm j }

/-- An accepted write of LEN: bits 15..0 (R37). -/
def Operands.writeLen (o : Operands) (d : Word) : Operands := { o with len := d.extractLsb' 0 16 }

/-- STATUS.KIN_V: all four K_IN words have been written (R43). -/
def Operands.kinV (o : Operands) : Bool := o.kinWm == 0b1111#4

/-- STATUS.KSN_V: all three KSN words have been written (R43). -/
def Operands.ksnV (o : Operands) : Bool := o.ksnWm == 0b111#3

/-- STATUS.REG_V: both REG words have been written (R43). -/
def Operands.regV (o : Operands) : Bool := o.regWm == 0b11#2

/-- The operands after CLEAR and after reset: no value and no valid mask bit (44_control.md R230; 10_state.md R51). -/
def Operands.cleared : Operands :=
  { kIn := 0, ksn := 0, reg := 0, len := 0, kinWm := 0, ksnWm := 0, regWm := 0 }

/-- What a command needs: a column each of the table of 30_encoding.md R107. -/
structure Needs where
  kIn : Bool
  ksn : Bool
  reg : Bool
  /-- LEN legal (ENCRYPT and DECRYPT) -/
  data : Bool
  deriving DecidableEq, Repr

/-- The rows of R107 by shape: K_IN and KSN; K_IN and REG; K_IN, KSN and data; nothing. -/
def Needs.key : Needs := { kIn := true, ksn := true, reg := false, data := false }
def Needs.register : Needs := { kIn := true, ksn := false, reg := true, data := false }
def Needs.message : Needs := { kIn := true, ksn := true, reg := false, data := true }
def Needs.nothing : Needs := { kIn := false, ksn := false, reg := false, data := false }

/-- The checks of LEN, in order (R133; 60_exceptions.md R242, R243, R246). -/
def State.lenError (s : State) : Option ErrCode :=
  if s.ops.len.toNat = 0 then some .invalidArgument
  else if s.ops.len.toNat % 8 ≠ 0 then some .cipherPrecondition
  else if s.params.dbufBytes < s.ops.len.toNat then some .lengthRange
  else none

/-- The first check of issue that a legal command fails, if any (R133; 60_exceptions.md R249). -/
def State.issueError (s : State) (n : Needs) : Option ErrCode :=
  if n.kIn && !s.ops.kinV then some .invalidArgument
  else if n.ksn && !s.ops.ksnV then some .invalidArgument
  else if n.reg && !s.ops.regV then some .invalidArgument
  else if n.data then s.lenError
  else none

/-- A CMD write of a legal word (40_command_lifecycle.md R131): ignored while busy (R139); otherwise clear (R132), check (R133), and start or
end in an error completion. `go` is what the command does when every check passes. -/
def issueCommand (i : Instr) (n : Needs) (go : State → State) (s : State) : StepOutcome :=
  if s.busy then .next s.ignoreWrite
  else
    match s.clearOnIssue.issueError n with
    | some e => .next (s.clearOnIssue.raise e i.opcode 0)
    | none => .next (go s.clearOnIssue)

/-- A CMD write of an illegal word: ignored while busy (R139); otherwise clear (R132) and end in ILLEGAL_COMMAND with `failOp = w[7:0]` (R133;
60_exceptions.md R245). -/
def issueIllegal (w : Word) (s : State) : StepOutcome :=
  if s.busy then .next s.ignoreWrite
  else .next (s.clearOnIssue.raise .illegalCommand (w.extractLsb' 0 8) 0)

end Sys2Proof.Machine
end

