-- ==== Sys2Proof/Machine/Flags.lean ====
section
/-! DEFINITION. STATUS, ERRINFO, CTRL and PARAM as words, the effect of a STATUS write, and the interrupt output: 10_state.md R32 to R35, R38,
R48. -/

namespace Sys2Proof.Machine

/-- The number of an error code (60_exceptions.md R241). -/
def ErrCode.code (e : ErrCode) : BitVec 4 :=
  match e with
  | .none => 0
  | .invalidArgument => 1
  | .cipherPrecondition => 2
  | .adapterFailure => 3
  | .illegalCommand => 4
  | .lengthRange => 5

/-- STATUS (R35): reserved bits 31..11 read 0, then REG_V, KSN_V, KIN_V, ERRCODE, WR_IGN, ERR, DONE, BUSY. -/
def State.statusWord (s : State) : Word :=
  0#21 ++ BitVec.ofBool s.ops.regV ++ BitVec.ofBool s.ops.ksnV ++ BitVec.ofBool s.ops.kinV ++ s.errCode.code ++
    BitVec.ofBool s.wrIgn ++ BitVec.ofBool s.err ++ BitVec.ofBool s.done ++ BitVec.ofBool s.busy

/-- A STATUS write (R35): each W1C field written with 1 is cleared; bit 2 clears ERR, ERRCODE and ERRINFO together. -/
def State.writeStatus (s : State) (d : Word) : State :=
  let s1 := if d.getLsbD 1 then { s with done := false } else s
  let s2 := if d.getLsbD 2 then s1.ackError else s1
  if d.getLsbD 3 then { s2 with wrIgn := false } else s2

/-- ERRINFO (R38): FAIL_OP in bits 15..8, ADAPTER_CODE in bits 7..0. -/
def State.errinfoWord (s : State) : Word := 0#16 ++ s.failOp ++ s.adapterCode

/-- CTRL (R34): IRQ_EN in bit 0. -/
def State.ctrlWord (s : State) : Word := 0#31 ++ BitVec.ofBool s.irqEn

/-- A CTRL write (R34): bit 0 only. -/
def State.writeCtrl (s : State) (d : Word) : State := { s with irqEn := d.getLsbD 0 }

/-- ID (R32): ASCII "DKPT". -/
def idWord : Word := 0x444B5054#32

/-- PARAM (R33): DBUF_BYTES in bits 15..0. -/
def State.paramWord (s : State) : Word := 0#16 ++ BitVec.ofNat 16 s.params.dbufBytes

/-- The interrupt output (R48; 60_exceptions.md R254). -/
def State.irq (s : State) : Bool := s.irqEn && (s.done || s.err)

end Sys2Proof.Machine
end

