-- ==== Sys2Proof/Machine/Bus.lean ====
section
/-! DEFINITION. The register window as the host sees it: the register map (10_state.md R31), accesses and bus errors (20_memory.md R73 to
R79), writes while busy (40_command_lifecycle.md R139), and the poll loop (30_encoding.md R111). -/

namespace Sys2Proof.Machine

/-- What stands at an offset of the window (10_state.md R31). -/
inductive Target where
  | id
  | param
  | ctrl
  | status
  | cmd
  | len
  | errinfo
  | kIn (j : Fin 4)
  | ksn (j : Fin 3)
  | reg (j : Fin 2)
  | res (j : Fin 4)
  /-- the word at byte offset `off` of DIN -/
  | din (off : Nat)
  /-- the word at byte offset `off` of DOUT -/
  | dout (off : Nat)
  deriving DecidableEq, Repr

/-- The registers of R31 by their offsets. -/
def registerMap : List (Nat × Target) :=
  [(0x000, .id), (0x004, .param), (0x008, .ctrl), (0x00C, .status), (0x010, .cmd), (0x014, .len), (0x018, .errinfo)] ++
  [(0x020, .kIn 0), (0x024, .kIn 1), (0x028, .kIn 2), (0x02C, .kIn 3)] ++
  [(0x030, .ksn 0), (0x034, .ksn 1), (0x038, .ksn 2), (0x040, .reg 0), (0x044, .reg 1)] ++
  [(0x050, .res 0), (0x054, .res 1), (0x058, .res 2), (0x05C, .res 3)]

/-- What an aligned offset names, the buffers included; nothing where the offset is unmapped (10_state.md R31; 20_memory.md R72, R75). -/
def targetAt (dbufBytes off : Nat) : Option Target :=
  if 0x800 ≤ off ∧ off < 0x800 + dbufBytes then some (.din (off - 0x800))
  else if 0xC00 ≤ off ∧ off < 0xC00 + dbufBytes then some (.dout (off - 0xC00))
  else registerMap.lookup off

/-- The offset of a bus address in the window, if the address lies in it (20_memory.md R83, R84). -/
def windowOffset (p : Params) (addr : Nat) : Option Nat :=
  if p.base ≤ addr ∧ addr < p.base + 4096 then some (addr - p.base) else none

/-- The bus address of an access. -/
def Access.addr (a : Access) : Nat :=
  match a with
  | .read addr _ => addr
  | .write addr _ _ => addr

/-- The width of an access. -/
def Access.width (a : Access) : AccessWidth :=
  match a with
  | .read _ width => width
  | .write _ width _ => width

/-- What an access at a window offset reaches: nothing if its width is not 32 bits, it is misaligned or its offset is unmapped, which gets a
bus error (20_memory.md R73 to R76). -/
def accessTarget (p : Params) (off : Nat) (width : AccessWidth) : Option Target :=
  if width = .w32 ∧ off % 4 = 0 then targetAt p.dbufBytes off else none

/-- The word a host read returns (R32 to R42; 20_memory.md R72, R77, R78, R81). It changes no state (R79). -/
def State.readTarget (s : State) (t : Target) : Word :=
  match t with
  | .id => idWord
  | .param => s.paramWord
  | .ctrl => s.ctrlWord
  | .status => s.statusWord
  | .cmd => 0
  | .len => s.ops.len.setWidth 32
  | .errinfo => s.errinfoWord
  | .kIn _ => 0
  | .ksn j => ksnWord s.ops.ksn j
  | .reg j => regWord s.ops.reg j
  | .res j => keyWord s.result j
  | .din off => s.din.read32 off
  | .dout off => if s.busy then 0 else s.dout.read32 off

/-- A write that is ignored, and recorded in WR_IGN, while busy (R139). -/
def State.unlessBusy (s : State) (t : State) : State := if s.busy then s.ignoreWrite else t

/-- A host write of a mapped register other than CMD (R34 to R41; 20_memory.md R77 to R79, R81; R139). CMD is the step's. -/
def State.writeTarget (s : State) (t : Target) (d : Word) : State :=
  match t with
  | .id => s
  | .param => s
  | .ctrl => s.writeCtrl d
  | .status => s.writeStatus d
  | .cmd => s
  | .len => s.unlessBusy { s with ops := s.ops.writeLen d }
  | .errinfo => s
  | .kIn j => s.unlessBusy { s with ops := s.ops.writeKIn j d }
  | .ksn j => s.unlessBusy { s with ops := s.ops.writeKsn j d }
  | .reg j => s.unlessBusy { s with ops := s.ops.writeReg j d }
  | .res _ => s
  | .din off => s.unlessBusy { s with din := s.din.write32 off d }
  | .dout _ => s

/-- The word a CMD write carries, if the access is one (10_state.md R36). -/
def commandWrite (p : Params) (a : Access) : Option Word :=
  match a with
  | .read _ _ => none
  | .write addr width d =>
    match windowOffset p addr with
    | none => none
    | some off => if accessTarget p off width = some .cmd then some d else none

/-- A host access that is no CMD write, with what the host gets back. An access outside the window is not this block's: it gets no answer
(R84; log 11). A bus error changes no state of the engine (R76). -/
def State.busAccess (s : State) (a : Access) : State :=
  match windowOffset s.params a.addr with
  | none => s.respond none
  | some off =>
    match accessTarget s.params off a.width with
    | none => s.respond (some .busError)
    | some t =>
      match a with
      | .read _ _ => s.respond (some (.word (s.readTarget t)))
      | .write _ _ d => (s.writeTarget t d).respond (some .accepted)

/-- One turn of the poll loop: a read of STATUS, and, while BUSY = 1, the loop again after one tick (30_encoding.md R111; log 14). -/
def State.pollStatus (s : State) : State :=
  let t := s.respond (some (.word s.statusWord))
  if s.busy then { t with inputs := .tick :: .poll :: s.inputs } else t

end Sys2Proof.Machine
end

