-- ==== Sys2Proof/Machine/Control.lean ====
section
/-! DEFINITION. The control command CLEAR: 44_control.md R230, R231. -/

namespace Sys2Proof.Machine

/-- What CLEAR does within its issue, after the clearing of R132 and the decode check (R230). CTRL and WR_IGN keep their values (R231). -/
def State.clearAll (s : State) : State :=
  { s with ops := Operands.cleared, din := [], dout := [], result := 0, failOp := 0, adapterCode := 0, done := true }.scrub

/-- CLEAR (R230). -/
def execClear (s : State) : StepOutcome :=
  issueCommand .clear Needs.nothing State.clearAll s

end Sys2Proof.Machine
end

