-- ==== Sys2Proof/Machine/Des.lean ====
section
/-! DEFINITION. The reference adapter's block cipher: the DES of FIPS 46-3 and two-key triple DES, which the spec names as the default of
ADAPTER and supplies from general knowledge (40_command_lifecycle.md R145; 93_implementation_defined.md G2 to G5, G11). PRESUMED: the
tables below are FIPS 46-3's (log 4). DES numbers bits from 1, the most significant bit of a value first (G4). -/

namespace Sys2Proof.Machine

/-- Select bits of `x` by a table of 1-based positions counted from the most significant bit; the first entry gives the most
significant bit of the result. -/
def desSelect {n : Nat} (m : Nat) (table : List Nat) (x : BitVec n) : BitVec m :=
  BitVec.ofNat m (table.foldl (fun acc p => 2 * acc + (x.getMsbD (p - 1)).toNat) 0)

/-- The initial permutation IP. -/
def desIP : List Nat :=
  [58, 50, 42, 34, 26, 18, 10, 2, 60, 52, 44, 36, 28, 20, 12, 4] ++
  [62, 54, 46, 38, 30, 22, 14, 6, 64, 56, 48, 40, 32, 24, 16, 8] ++
  [57, 49, 41, 33, 25, 17, 9, 1, 59, 51, 43, 35, 27, 19, 11, 3] ++
  [61, 53, 45, 37, 29, 21, 13, 5, 63, 55, 47, 39, 31, 23, 15, 7]

/-- The final permutation, the inverse of IP. -/
def desFP : List Nat :=
  [40, 8, 48, 16, 56, 24, 64, 32, 39, 7, 47, 15, 55, 23, 63, 31] ++
  [38, 6, 46, 14, 54, 22, 62, 30, 37, 5, 45, 13, 53, 21, 61, 29] ++
  [36, 4, 44, 12, 52, 20, 60, 28, 35, 3, 43, 11, 51, 19, 59, 27] ++
  [34, 2, 42, 10, 50, 18, 58, 26, 33, 1, 41, 9, 49, 17, 57, 25]

/-- The expansion E of the right half. -/
def desExpansion : List Nat :=
  [32, 1, 2, 3, 4, 5, 4, 5, 6, 7, 8, 9, 8, 9, 10, 11, 12, 13, 12, 13, 14, 15, 16, 17] ++
  [16, 17, 18, 19, 20, 21, 20, 21, 22, 23, 24, 25, 24, 25, 26, 27, 28, 29, 28, 29, 30, 31, 32, 1]

/-- The permutation P of a round's output. -/
def desPermutation : List Nat :=
  [16, 7, 20, 21, 29, 12, 28, 17, 1, 15, 23, 26, 5, 18, 31, 10] ++
  [2, 8, 24, 14, 32, 27, 3, 9, 19, 13, 30, 6, 22, 11, 4, 25]

/-- Permuted choice 1: the 56 key bits, without the parity bit of each key byte (G5). -/
def desPC1 : List Nat :=
  [57, 49, 41, 33, 25, 17, 9, 1, 58, 50, 42, 34, 26, 18, 10, 2, 59, 51, 43, 35, 27, 19, 11, 3, 60, 52, 44, 36] ++
  [63, 55, 47, 39, 31, 23, 15, 7, 62, 54, 46, 38, 30, 22, 14, 6, 61, 53, 45, 37, 29, 21, 13, 5, 28, 20, 12, 4]

/-- Permuted choice 2: the 48 bits of a round key. -/
def desPC2 : List Nat :=
  [14, 17, 11, 24, 1, 5, 3, 28, 15, 6, 21, 10, 23, 19, 12, 4, 26, 8, 16, 7, 27, 20, 13, 2] ++
  [41, 52, 31, 37, 47, 55, 30, 40, 51, 45, 33, 48, 44, 49, 39, 56, 34, 53, 46, 42, 50, 36, 29, 32]

/-- How far each round rotates the two key halves. -/
def desShifts : List Nat := [1, 1, 2, 2, 2, 2, 2, 2, 1, 2, 2, 2, 2, 2, 2, 1]

/-- The eight S-boxes, each four rows of sixteen. -/
def desS1 : List Nat :=
  [14, 4, 13, 1, 2, 15, 11, 8, 3, 10, 6, 12, 5, 9, 0, 7] ++ [0, 15, 7, 4, 14, 2, 13, 1, 10, 6, 12, 11, 9, 5, 3, 8] ++
  [4, 1, 14, 8, 13, 6, 2, 11, 15, 12, 9, 7, 3, 10, 5, 0] ++ [15, 12, 8, 2, 4, 9, 1, 7, 5, 11, 3, 14, 10, 0, 6, 13]
def desS2 : List Nat :=
  [15, 1, 8, 14, 6, 11, 3, 4, 9, 7, 2, 13, 12, 0, 5, 10] ++ [3, 13, 4, 7, 15, 2, 8, 14, 12, 0, 1, 10, 6, 9, 11, 5] ++
  [0, 14, 7, 11, 10, 4, 13, 1, 5, 8, 12, 6, 9, 3, 2, 15] ++ [13, 8, 10, 1, 3, 15, 4, 2, 11, 6, 7, 12, 0, 5, 14, 9]
def desS3 : List Nat :=
  [10, 0, 9, 14, 6, 3, 15, 5, 1, 13, 12, 7, 11, 4, 2, 8] ++ [13, 7, 0, 9, 3, 4, 6, 10, 2, 8, 5, 14, 12, 11, 15, 1] ++
  [13, 6, 4, 9, 8, 15, 3, 0, 11, 1, 2, 12, 5, 10, 14, 7] ++ [1, 10, 13, 0, 6, 9, 8, 7, 4, 15, 14, 3, 11, 5, 2, 12]
def desS4 : List Nat :=
  [7, 13, 14, 3, 0, 6, 9, 10, 1, 2, 8, 5, 11, 12, 4, 15] ++ [13, 8, 11, 5, 6, 15, 0, 3, 4, 7, 2, 12, 1, 10, 14, 9] ++
  [10, 6, 9, 0, 12, 11, 7, 13, 15, 1, 3, 14, 5, 2, 8, 4] ++ [3, 15, 0, 6, 10, 1, 13, 8, 9, 4, 5, 11, 12, 7, 2, 14]
def desS5 : List Nat :=
  [2, 12, 4, 1, 7, 10, 11, 6, 8, 5, 3, 15, 13, 0, 14, 9] ++ [14, 11, 2, 12, 4, 7, 13, 1, 5, 0, 15, 10, 3, 9, 8, 6] ++
  [4, 2, 1, 11, 10, 13, 7, 8, 15, 9, 12, 5, 6, 3, 0, 14] ++ [11, 8, 12, 7, 1, 14, 2, 13, 6, 15, 0, 9, 10, 4, 5, 3]
def desS6 : List Nat :=
  [12, 1, 10, 15, 9, 2, 6, 8, 0, 13, 3, 4, 14, 7, 5, 11] ++ [10, 15, 4, 2, 7, 12, 9, 5, 6, 1, 13, 14, 0, 11, 3, 8] ++
  [9, 14, 15, 5, 2, 8, 12, 3, 7, 0, 4, 10, 1, 13, 11, 6] ++ [4, 3, 2, 12, 9, 5, 15, 10, 11, 14, 1, 7, 6, 0, 8, 13]
def desS7 : List Nat :=
  [4, 11, 2, 14, 15, 0, 8, 13, 3, 12, 9, 7, 5, 10, 6, 1] ++ [13, 0, 11, 7, 4, 9, 1, 10, 14, 3, 5, 12, 2, 15, 8, 6] ++
  [1, 4, 11, 13, 12, 3, 7, 14, 10, 15, 6, 8, 0, 5, 9, 2] ++ [6, 11, 13, 8, 1, 4, 10, 7, 9, 5, 0, 15, 14, 2, 3, 12]
def desS8 : List Nat :=
  [13, 2, 8, 4, 6, 15, 11, 1, 10, 9, 3, 14, 5, 0, 12, 7] ++ [1, 15, 13, 8, 10, 3, 7, 4, 12, 5, 6, 11, 0, 14, 9, 2] ++
  [7, 11, 4, 1, 9, 12, 14, 2, 0, 6, 10, 13, 15, 3, 5, 8] ++ [2, 1, 14, 7, 4, 10, 8, 13, 15, 12, 9, 0, 3, 5, 6, 11]

/-- One S-box on the six bits of `x` that end at bit `lo`: the outer two bits are the row, the inner four the column. -/
def desBox (table : List Nat) (x : BitVec 48) (lo : Nat) : BitVec 4 :=
  let b := (x.extractLsb' lo 6).toNat
  let row := 2 * (b / 32) + b % 2
  let col := b / 2 % 16
  BitVec.ofNat 4 (table.getD (16 * row + col) 0)

/-- The round function f on the right half and a round key. -/
def desF (r : BitVec 32) (k : BitVec 48) : BitVec 32 :=
  let x := desSelect 48 desExpansion r ^^^ k
  let y : BitVec 32 :=
    desBox desS1 x 42 ++ desBox desS2 x 36 ++ desBox desS3 x 30 ++ desBox desS4 x 24 ++
    desBox desS5 x 18 ++ desBox desS6 x 12 ++ desBox desS7 x 6 ++ desBox desS8 x 0
  desSelect 32 desPermutation y

/-- The round keys from the two 28-bit halves, one per rotation. -/
def desRoundKeys (shifts : List Nat) (c d : BitVec 28) : List (BitVec 48) :=
  match shifts with
  | [] => []
  | n :: rest =>
    let c' := c.rotateLeft n
    let d' := d.rotateLeft n
    desSelect 48 desPC2 (c' ++ d') :: desRoundKeys rest c' d'

/-- The sixteen round keys of a 64-bit key. -/
def desKeys (key : Block) : List (BitVec 48) :=
  let cd := desSelect 56 desPC1 key
  desRoundKeys desShifts (cd.extractLsb' 28 28) (cd.extractLsb' 0 28)

/-- One round on the pair of halves. -/
def desRound (lr : BitVec 32 × BitVec 32) (k : BitVec 48) : BitVec 32 × BitVec 32 :=
  (lr.2, lr.1 ^^^ desF lr.2 k)

/-- The rounds under a list of round keys, between IP and FP, with the halves exchanged at the end. -/
def desCrypt (keys : List (BitVec 48)) (b : Block) : Block :=
  let x := desSelect 64 desIP b
  let lr := keys.foldl desRound (x.extractLsb' 32 32, x.extractLsb' 0 32)
  desSelect 64 desFP (lr.2 ++ lr.1)

/-- DES encryption (R145, G2). -/
def desEncrypt (key b : Block) : Block := desCrypt (desKeys key) b

/-- DES decryption: the round keys in reverse (R145, G2). -/
def desDecrypt (key b : Block) : Block := desCrypt (desKeys key).reverse b

/-- `TDES_E = E(K1, D(K2, E(K1, b)))` with K1 = key[127:64], K2 = key[63:0] (R145, G3). -/
def tdesEncrypt (key : Key) (b : Block) : Block :=
  let k1 := key.extractLsb' 64 64
  let k2 := key.extractLsb' 0 64
  desEncrypt k1 (desDecrypt k2 (desEncrypt k1 b))

/-- `TDES_D = D(K1, E(K2, D(K1, b)))` (R145, G3). -/
def tdesDecrypt (key : Key) (b : Block) : Block :=
  let k1 := key.extractLsb' 64 64
  let k2 := key.extractLsb' 0 64
  desDecrypt k1 (desEncrypt k2 (desDecrypt k1 b))

/-- The reference adapter, which never fails (R145). -/
def referenceAdapter (q : Request) : Response :=
  match q with
  | .desE key b => .ok (desEncrypt key b)
  | .tdesE key b => .ok (tdesEncrypt key b)
  | .tdesD key b => .ok (tdesDecrypt key b)

end Sys2Proof.Machine
end

