-- ==== Sys2Proof/Machine/CipherPort.lean ====
section
/-! DEFINITION. The cipher port (40_command_lifecycle.md R140 to R147): computations that call the cipher, how a suspended one goes on from
the answers it has had, its value under an adapter, and the adapter's step. -/

namespace Sys2Proof.Machine

/-- A computation that may call `Cipher(op, key, block)` (00_scope.md R13; R141): it has a value, or it sends a request and goes on with the
answer. The functions of 41 to 43 and the phase actions are such computations; State never holds one. -/
inductive Prog (α : Type) where
  | ret (a : α)
  | call (q : Request) (k : Block → Prog α)

/-- Do `p`, then `f` with its value. -/
def Prog.bind {α β : Type} (p : Prog α) (f : α → Prog β) : Prog β :=
  match p with
  | .ret a => f a
  | .call q k => .call q fun r => Prog.bind (k r) f

/-- The computation after the answers it has had, oldest first (R141, step 3). -/
def Prog.resume {α : Type} (p : Prog α) (answers : List Block) : Prog α :=
  match answers with
  | [] => p
  | r :: rs =>
    match p with
    | .ret a => .ret a
    | .call _ k => Prog.resume (k r) rs
termination_by structural answers

/-- The value of a computation when the adapter is the function `ad` (R144, R148): its value, or the code of the first request that fails
(R143). -/
def Prog.eval {α : Type} (ad : Request → Response) (p : Prog α) : Except FailCode α :=
  match p with
  | .ret a => .ok a
  | .call q k =>
    match ad q with
    | .ok r => Prog.eval ad (k r)
    | .fail x => .error x

/-- The requests a computation sends to the adapter `ad`, in order, up to and with the first that fails (R143, R150). -/
def Prog.requests {α : Type} (ad : Request → Response) (p : Prog α) : List Request :=
  match p with
  | .ret _ => []
  | .call q k =>
    match ad q with
    | .ok r => q :: Prog.requests ad (k r)
    | .fail _ => [q]

/-- The function of a backend. -/
def backendAnswer (b : Backend) (q : Request) : Response :=
  match b with
  | .reference => referenceAdapter q
  | .alwaysFail x => .fail x
  | .unknown => Config.unknownAdapter q

/-- The function ADAPTER (R144): the table's answer if it has one, else the backend's. -/
def adapterAnswer (a : Adapter) (q : Request) : Response :=
  match a.table.lookup q with
  | some r => r
  | none => backendAnswer a.backend q

/-- The adapter's answer to a request, in the state's parameters. -/
def State.adapter (s : State) : Request → Response := adapterAnswer s.params.adapter

/-- The engine sends a request: `PEND <- (op, key, block)` (R141, step 1). -/
def State.send (s : State) (q : Request) : State := { s with pend := some q }

/-- The pending request will never be answered (R147); with none pending there is nothing to leave unanswered. -/
def State.leaveUnanswered (s : State) : State := if s.pend.isSome then { s with silent := true } else s

/-- The adapter's step on the pending request (R141, steps 2 to 4): PEND becomes none; an answer is handed to the suspended action; a failure
is one atomic step with the error completion ADAPTER_FAILURE, with OPC and the adapter's code. -/
def State.adapterStep (s : State) (q : Request) : State :=
  match s.adapter q with
  | .ok r => { s with pend := none, answers := s.answers ++ [r] }
  | .fail x => { s with pend := none }.raise .adapterFailure s.work.opc x

end Sys2Proof.Machine
end

