-- ==== Sys2Proof/Machine/Masks.lean ====
section
/-! DEFINITION. The mask table, hardwired constants (10_state.md R21 to R30), and the halves of a key (00_scope.md R11). The values are the
spec's, marked there as general knowledge (93_implementation_defined.md G1; log 17). -/

namespace Sys2Proof.Machine

/-- R21: bits 20 to 0. -/
def reg3Mask : Cursor := 0x1FFFFF#21

/-- R22: only bit 20, the start of the walk cursor. -/
def shiftRegMask : Cursor := 0x100000#21

/-- R23: bits 63 to 21. -/
def reg8Mask : Block := 0xFFFFFFFFFFE00000#64

/-- R24: bits 63 to 0 of a 128-bit value (90_conflicts.md C1). -/
def ls16Mask : Key := 0x0000000000000000FFFFFFFFFFFFFFFF#128

/-- R25: bits 127 to 64 of a 128-bit value (90_conflicts.md C1). -/
def ms16Mask : Key := 0xFFFFFFFFFFFFFFFF0000000000000000#128

/-- R26. -/
def keyMask : Key := 0xC0C0C0C000000000C0C0C0C000000000#128

/-- R27: bits 79 to 21. -/
def ksnMask : Ksn := 0xFFFFFFFFFFFFFFE00000#80

/-- R28: the PIN variant. -/
def pekMask : Key := 0x00000000000000FF00000000000000FF#128

/-- R29: the Data variant. -/
def dekMask : Key := 0x0000000000FF00000000000000FF0000#128

/-- `hi64(k) = k[127:64]` (00_scope.md R11). -/
def hi64 (k : Key) : Block := k.extractLsb' 64 64

/-- `lo64(k) = k[63:0]` (00_scope.md R11). -/
def lo64 (k : Key) : Block := k.extractLsb' 0 64

end Sys2Proof.Machine
end

