-- ==== Sys2Proof/Machine/Walk.lean ====
section
/-! DEFINITION. The non-reversible key walk, its step and the one-way compression, with the commands DERIVE_KEY, GENERATE_KEY and
ENCRYPT_REGISTER: 41_ipek_walk.md R165 to R176. -/

namespace Sys2Proof.Machine

/-- The pure function `encryptRegister` (R174). -/
def encryptRegister (key : Key) (reg8 : Block) : Prog Block :=
  let lo := (key &&& ls16Mask).setWidth 64
  let khi := ((key &&& ms16Mask) >>> 64).setWidth 64
  .call (.desE khi (lo ^^^ reg8)) fun c => .ret (lo ^^^ c)

/-- The pure function `generateKey`, left half first (R172). -/
def generateKey (key : Key) (ksnReg : Block) : Prog Key :=
  (encryptRegister (key ^^^ keyMask) ksnReg).bind fun left =>
    (encryptRegister key ksnReg).bind fun right => .ret (left ++ right)

/-- The registers of the walk: KREG, CUR and SR (R44). -/
structure WalkRegs where
  kreg : Block
  cur : Key
  sr : Cursor
  deriving DecidableEq, Repr

/-- The KSN register at the start of the walk: `KSN[63:21] || 0^21` (R165, R166). -/
def walkKsnReg (ksn : Ksn) : Block := (ksn.setWidth 128 &&& ls16Mask).setWidth 64 &&& reg8Mask

/-- The counter bit under the cursor is set in the KSN (R165, R167). -/
def walkBitSet (sr : Cursor) (ksn : Ksn) : Bool :=
  (sr.setWidth 80 &&& ksn &&& reg3Mask.setWidth 80) != 0

/-- One iteration of the walk (R165, R167). -/
def walkIteration (ksn : Ksn) (w : WalkRegs) : Prog WalkRegs :=
  if walkBitSet w.sr ksn then
    let kreg := w.kreg ||| w.sr.setWidth 64
    (generateKey w.cur kreg).bind fun cur => .ret { kreg := kreg, cur := cur, sr := w.sr >>> 1 }
  else .ret { w with sr := w.sr >>> 1 }

/-- `n` iterations, strictly one after another (R165, R169). -/
def walkIterations (ksn : Ksn) : Nat → WalkRegs → Prog WalkRegs
  | 0, w => .ret w
  | n + 1, w => (walkIteration ksn w).bind (walkIterations ksn n)

/-- The pure function `deriveKey`: 21 iterations from bit 20 (R165). -/
def deriveKey (ipek : Key) (ksn : Ksn) : Prog Key :=
  (walkIterations ksn 21 { kreg := walkKsnReg ksn, cur := ipek, sr := shiftRegMask }).bind fun w => .ret w.cur

/-- `walkInit()` (R166). -/
def State.walkInit (s : State) : State :=
  { s with work := { s.work with kreg := walkKsnReg s.ops.ksn, sr := shiftRegMask } }

/-- The start of a command that walks from K_IN: `CUR <- K_IN; walkInit(); PH <- WALK` (40_command_lifecycle.md R134). -/
def State.startWalk (s : State) (opc : BitVec 8) : State :=
  let t := s.start opc .pin .walk
  { t with work := { t.work with cur := s.ops.kIn } }.walkInit

/-- Phase GEN (R173). -/
def phaseGen (s : State) : Prog StepOutcome :=
  (generateKey s.ops.kIn s.ops.reg).bind fun k => .ret (.next (s.complete (some k)))

/-- Phase EREG (R175): the 64-bit value in RESULT[63:0], 0 above. -/
def phaseEreg (s : State) : Prog StepOutcome :=
  (encryptRegister s.ops.kIn s.ops.reg).bind fun b => .ret (.next (s.complete (some (b.setWidth 128))))

/-- DERIVE_KEY (R170). -/
def execDeriveKey (s : State) : StepOutcome :=
  issueCommand .deriveKey Needs.key (fun t => t.startWalk 0x02#8) s

/-- GENERATE_KEY (R173). -/
def execGenerateKey (s : State) : StepOutcome :=
  issueCommand .generateKey Needs.register (fun t => t.start 0x03#8 .pin .gen) s

/-- ENCRYPT_REGISTER (R175). -/
def execEncryptRegister (s : State) : StepOutcome :=
  issueCommand .encryptRegister Needs.register (fun t => t.start 0x04#8 .pin .ereg) s

end Sys2Proof.Machine
end

