-- ==== Sys2Proof/Machine/Ipek.lean ====
section
/-! DEFINITION. The IPEK bootstrap and the command CREATE_IPEK: 41_ipek_walk.md R160 to R164. -/

namespace Sys2Proof.Machine

/-- `r = trunc_64((ksn AND KsnMask) >> 16)`: the top 64 bits of the KSN with the counter zeroed (R160; 90_conflicts.md C4). -/
def ipekRegister (ksn : Ksn) : Block := ((ksn &&& ksnMask) >>> 16).setWidth 64

/-- The pure function `createIPEK` (R160). -/
def createIPEK (bdk : Key) (ksn : Ksn) : Prog Key :=
  .call (.tdesE bdk (ipekRegister ksn)) fun left =>
    .call (.tdesE (bdk ^^^ keyMask) (ipekRegister ksn)) fun right => .ret (left ++ right)

/-- Phase IPEK_L (R162). -/
def phaseIpekL (s : State) : Prog StepOutcome :=
  .call (.tdesE s.ops.kIn (ipekRegister s.ops.ksn)) fun c =>
    .ret (.next { s with work := { s.work with tl := c, ph := .ipekR } })

/-- Phase IPEK_R (R163): CREATE_IPEK completes, every other command of this path walks from the IPEK. -/
def phaseIpekR (s : State) : Prog StepOutcome :=
  .call (.tdesE (s.ops.kIn ^^^ keyMask) (ipekRegister s.ops.ksn)) fun c =>
    let t := { s with work := { s.work with cur := s.work.tl ++ c, tl := 0 } }
    if s.work.opc = 0x01 then .ret (.next (t.complete (some t.work.cur)))
    else .ret (.next { t.walkInit with work := { t.walkInit.work with ph := .walk } })

/-- CREATE_IPEK (R161). -/
def execCreateIpek (s : State) : StepOutcome :=
  issueCommand .createIpek Needs.key (fun t => t.start 0x01#8 .pin .ipekL) s

end Sys2Proof.Machine
end

