-- ==== Sys2Proof/Machine/Session.lean ====
section
/-! DEFINITION. The session-key variants and the commands SESSION_PEK, SESSION_DEK and SESSION_KEY: 42_session_variants.md R190 to R197. -/

namespace Sys2Proof.Machine

/-- The pure function `createSessionKeyPEK` (R190). -/
def createSessionKeyPEK (ipek : Key) (ksn : Ksn) : Prog Key :=
  (deriveKey ipek ksn).bind fun k => .ret (k ^^^ pekMask)

/-- The DEK diversification of an intermediate, left half first (R192). -/
def diversify (i : Key) : Prog Key :=
  .call (.tdesE i (hi64 i)) fun left => .call (.tdesE i (lo64 i)) fun right => .ret (left ++ right)

/-- The pure function `createSessionKeyDEK` (R192). -/
def createSessionKeyDEK (ipek : Key) (ksn : Ksn) : Prog Key :=
  (deriveKey ipek ksn).bind fun k => diversify (k ^^^ dekMask)

/-- The pure function `createSessionKey` (R195). -/
def createSessionKey (bdk : Key) (ksn : Ksn) (v : Variant) : Prog Key :=
  (createIPEK bdk ksn).bind fun ipek =>
    match v with
    | .pin => createSessionKeyPEK ipek ksn
    | .data => createSessionKeyDEK ipek ksn

/-- `dataInit()` (43_data_cipher.md R212). -/
def State.dataInit (s : State) : State :=
  { s with work := { s.work with bi := 0, cv := 0, ph := .data } }

/-- The command in progress takes the PIN path: SESSION_PEK, or VAR = 0 with SESSION_KEY, ENCRYPT or DECRYPT (R197). -/
def Working.pinPath (w : Working) : Bool :=
  w.opc == 0x05 || ((w.opc == 0x07 || w.opc == 0x08 || w.opc == 0x09) && w.var == .pin)

/-- `variantStep()` (R197), performed in the step that ends the walk. -/
def State.variantStep (s : State) : State :=
  if s.work.pinPath then
    let t := { s with work := { s.work with sk := s.work.cur ^^^ pekMask } }
    if s.work.opc = 0x05 ∨ s.work.opc = 0x07 then t.complete (some t.work.sk) else t.dataInit
  else { s with work := { s.work with cur := s.work.cur ^^^ dekMask, ph := .dekL } }

/-- `afterWalk()` (41_ipek_walk.md R168): the commands that walk, by OPC. No rule gives an action for another OPC here. -/
def State.afterWalk (s : State) : StepOutcome :=
  if s.work.opc = 0x02 then .next (s.complete (some s.work.cur))
  else if 5 ≤ s.work.opc.toNat ∧ s.work.opc.toNat ≤ 9 then .next s.variantStep
  else .fault .noPhaseAction

/-- Phase WALK (41_ipek_walk.md R167, R168): all its writes take effect together, once its last request is answered. -/
def phaseWalk (s : State) : Prog StepOutcome :=
  (walkIteration s.ops.ksn { kreg := s.work.kreg, cur := s.work.cur, sr := s.work.sr }).bind fun w =>
    let t := { s with work := { s.work with kreg := w.kreg, cur := w.cur, sr := w.sr } }
    .ret (if w.sr = 0 then t.afterWalk else .next t)

/-- Phase DEK_L (R193). -/
def phaseDekL (s : State) : Prog StepOutcome :=
  .call (.tdesE s.work.cur (hi64 s.work.cur)) fun c =>
    .ret (.next { s with work := { s.work with tl := c, ph := .dekR } })

/-- Phase DEK_R (R193). -/
def phaseDekR (s : State) : Prog StepOutcome :=
  .call (.tdesE s.work.cur (lo64 s.work.cur)) fun c =>
    let t := { s with work := { s.work with sk := s.work.tl ++ c, tl := 0 } }
    if s.work.opc = 0x06 ∨ s.work.opc = 0x07 then .ret (.next (t.complete (some t.work.sk)))
    else .ret (.next t.dataInit)

/-- SESSION_PEK (R191). -/
def execSessionPek (s : State) : StepOutcome :=
  issueCommand .sessionPek Needs.key (fun t => t.startWalk 0x05#8) s

/-- SESSION_DEK (R194). -/
def execSessionDek (s : State) : StepOutcome :=
  issueCommand .sessionDek Needs.key (fun t => t.startWalk 0x06#8) s

/-- SESSION_KEY (R196). -/
def execSessionKey (v : Variant) (s : State) : StepOutcome :=
  issueCommand (.sessionKey v) Needs.key (fun t => t.start 0x07#8 v .ipekL) s

end Sys2Proof.Machine
end

