-- ==== Sys2Proof/Machine/DataCipher.lean ====
section
/-! DEFINITION. Top-level encryption and decryption of a message and the commands ENCRYPT and DECRYPT: 43_data_cipher.md R210 to R216. -/

namespace Sys2Proof.Machine

/-- CBC encryption under a key from a chaining value, in ascending block order (R210). -/
def cbcEncrypt (k : Key) (cv : Block) : List Block → Prog (List Block)
  | [] => .ret []
  | p :: ps => .call (.tdesE k (p ^^^ cv)) fun c => (cbcEncrypt k c ps).bind fun cs => .ret (c :: cs)

/-- CBC decryption under a key from a chaining value (R211). -/
def cbcDecrypt (k : Key) (cv : Block) : List Block → Prog (List Block)
  | [] => .ret []
  | c :: cs => .call (.tdesD k c) fun r => (cbcDecrypt k c cs).bind fun ps => .ret ((r ^^^ cv) :: ps)

/-- The pure function `encrypt`: zero IV, no padding (R210). -/
def encryptMessage (bdk : Key) (ksn : Ksn) (ps : List Block) (v : Variant) : Prog (List Block) :=
  (createSessionKey bdk ksn v).bind fun k => cbcEncrypt k 0 ps

/-- The pure function `decrypt` (R211). -/
def decryptMessage (bdk : Key) (ksn : Ksn) (cs : List Block) (v : Variant) : Prog (List Block) :=
  (createSessionKey bdk ksn v).bind fun k => cbcDecrypt k 0 cs

/-- The end of a DATA step: block BI of DOUT, CV and BI are written, and the command completes at the last block (R213, R214). -/
def State.dataBlock (s : State) (out chain : Block) : State :=
  let t := { s with
    dout := s.dout.write64 (8 * s.work.bi.toNat) out
    work := { s.work with cv := chain, bi := s.work.bi + 1 } }
  if t.work.bi.toNat = s.ops.len.toNat / 8 then t.complete none else t

/-- Phase DATA (R213 for ENCRYPT, R214 for DECRYPT). No rule gives an action for another OPC, or for a block outside the buffers
(20_memory.md R82). -/
def phaseData (s : State) : Prog StepOutcome :=
  if 8 * s.work.bi.toNat + 8 ≤ s.params.dbufBytes then
    let b := s.din.read64 (8 * s.work.bi.toNat)
    if s.work.opc = 0x08 then
      .call (.tdesE s.work.sk (b ^^^ s.work.cv)) fun c => .ret (.next (s.dataBlock c c))
    else if s.work.opc = 0x09 then
      .call (.tdesD s.work.sk b) fun r => .ret (.next (s.dataBlock (r ^^^ s.work.cv) b))
    else .ret (.fault .noPhaseAction)
  else .ret (.fault .bufferAddress)

/-- ENCRYPT (R215). -/
def execEncrypt (v : Variant) (s : State) : StepOutcome :=
  issueCommand (.encrypt v) Needs.message (fun t => t.start 0x08#8 v .ipekL) s

/-- DECRYPT (R216). -/
def execDecrypt (v : Variant) (s : State) : StepOutcome :=
  issueCommand (.decrypt v) Needs.message (fun t => t.start 0x09#8 v .ipekL) s

end Sys2Proof.Machine
end

