-- ==== Sys2Proof/Machine/Dispatch.lean ====
section
/-! DEFINITION. The meaning of a command: one arm per constructor of Instr. A meaning is the CMD write that issues the command
(40_command_lifecycle.md R131). -/

namespace Sys2Proof.Machine

def exec (i : Instr) (s : State) : Host.Outcome State Fault Refusal :=
  match i with
  | .createIpek => Sys2Proof.Machine.execCreateIpek s
  | .deriveKey => Sys2Proof.Machine.execDeriveKey s
  | .generateKey => Sys2Proof.Machine.execGenerateKey s
  | .encryptRegister => Sys2Proof.Machine.execEncryptRegister s
  | .sessionPek => Sys2Proof.Machine.execSessionPek s
  | .sessionDek => Sys2Proof.Machine.execSessionDek s
  | .sessionKey v => Sys2Proof.Machine.execSessionKey v s
  | .encrypt v => Sys2Proof.Machine.execEncrypt v s
  | .decrypt v => Sys2Proof.Machine.execDecrypt v s
  | .clear => Sys2Proof.Machine.execClear s

end Sys2Proof.Machine
end

