-- ==== Sys2Proof/Machine/HostProgram.lean ====
section
/-! DEFINITION. The host program operations and their expansions into bus transactions: 30_encoding.md R110, R111. Offsets are relative to
BASE. -/

namespace Sys2Proof.Machine

/-- `wr OFF, IMM32` (R110). -/
def hostWr (p : Params) (off : Nat) (imm : Word) : Input := .access (.write (p.base + off) .w32 imm)

/-- `rd OFF` (R110). -/
def hostRd (p : Params) (off : Nat) : Input := .access (.read (p.base + off) .w32)

/-- `cmd M`, `cmd M.pin`, `cmd M.data` (R111). -/
def hostCmd (p : Params) (i : Instr) : List Input := [hostWr p 0x010 (encode i)]

/-- `wkey K128` (R111). -/
def hostWkey (p : Params) (k : Key) : List Input :=
  [hostWr p 0x020 (keyWord k 0), hostWr p 0x024 (keyWord k 1), hostWr p 0x028 (keyWord k 2), hostWr p 0x02C (keyWord k 3)]

/-- `wksn S80` (R111). -/
def hostWksn (p : Params) (k : Ksn) : List Input :=
  [hostWr p 0x030 (ksnWord k 0), hostWr p 0x034 (ksnWord k 1), hostWr p 0x038 (ksnWord k 2)]

/-- `wreg G64` (R111). -/
def hostWreg (p : Params) (g : Block) : List Input := [hostWr p 0x040 (regWord g 0), hostWr p 0x044 (regWord g 1)]

/-- `wlen N` (R111). -/
def hostWlen (p : Params) (n : BitVec 16) : List Input := [hostWr p 0x014 (n.setWidth 32)]

/-- `wdin i, B64` (R111). -/
def hostWdin (p : Params) (i : Nat) (b : Block) : List Input :=
  [hostWr p (0x800 + 8 * i) (b.extractLsb' 32 32), hostWr p (0x804 + 8 * i) (b.extractLsb' 0 32)]

/-- `poll` (R111). -/
def hostPoll : List Input := [.poll]

/-- `rdres` (R111). -/
def hostRdres (p : Params) : List Input := [hostRd p 0x050, hostRd p 0x054, hostRd p 0x058, hostRd p 0x05C]

/-- `rdout i` (R111). -/
def hostRdout (p : Params) (i : Nat) : List Input := [hostRd p (0xC00 + 8 * i), hostRd p (0xC04 + 8 * i)]

/-- `ack` (R111): clears DONE and ERR. -/
def hostAck (p : Params) : List Input := [hostWr p 0x00C 0x00000006#32]

end Sys2Proof.Machine
end

