-- ==== Sys2Proof/Machine/Sequencer.lean ====
section
/-! DEFINITION. The engine's step and the schedule's tick: 40_command_lifecycle.md R130, R135, R141, R147. -/

namespace Sys2Proof.Machine

/-- The action of the current phase (R135). IDLE has none: an engine that is busy in IDLE is in no state a run reaches (10_state.md R45). -/
def phaseAction (s : State) : Prog StepOutcome :=
  match s.work.ph with
  | .idle => .ret (.fault .noPhaseAction)
  | .ipekL => phaseIpekL s
  | .ipekR => phaseIpekR s
  | .walk => phaseWalk s
  | .dekL => phaseDekL s
  | .dekR => phaseDekR s
  | .data => phaseData s
  | .gen => phaseGen s
  | .ereg => phaseEreg s

/-- One step of the engine: the phase action goes on from the answers it has had. Either it sends its next request and is suspended, with no
register written, or it ends, with all its writes taking effect together (R135, R141). -/
def engineStep (s : State) : StepOutcome :=
  match (phaseAction { s with answers := [] }).resume s.answers with
  | .call q _ => .next (s.send q)
  | .ret o => o

/-- The step of whichever of engine and adapter is enabled; `stuck` is the answer when neither ever will be, and an idle block stays as it is
(R130, R147; 60_exceptions.md R265). -/
def agentStep (stuck : StepOutcome) (s : State) : StepOutcome :=
  match s.pend with
  | some q => if s.silent then stuck else .next (s.adapterStep q)
  | none => if s.busy then engineStep s else .next s

/-- A tick of an explicit schedule: with no agent enabled, nothing happens. -/
def tick (s : State) : StepOutcome := agentStep (.next s) s

/-- A step with no input left: the enabled agent steps, and a hang is named (R147, R151; log 8, log 15). -/
def freeRun (s : State) : StepOutcome := agentStep (.fault .hang) s

end Sys2Proof.Machine
end

