-- ==== Sys2Proof/Machine/Step.lean ====
section
/-! DEFINITION. One step of the whole machine: the next input, or, with none left, the enabled one of engine and adapter
(40_command_lifecycle.md R130; 20_memory.md R85; log 1). -/

namespace Sys2Proof.Machine

/-- A CMD write of a word (40_command_lifecycle.md R131, R133). -/
def issueWord (w : Word) (s : State) : StepOutcome :=
  match decode w with
  | .ok i => exec i s
  | .error _ => issueIllegal w s

/-- One host access: a CMD write issues its word; every other access is the bus's (20_memory.md R79). -/
def hostAccess (a : Access) (s : State) : StepOutcome :=
  match commandWrite s.params a with
  | some w => issueWord w (s.respond (some .accepted))
  | none => .next (s.busAccess a)

/-- What an input does, the input itself taken off the schedule. -/
def deliver (x : Input) (s : State) : StepOutcome :=
  match x with
  | .access a => hostAccess a s
  | .tick => tick s
  | .poll => .next s.pollStatus
  | .noAnswer => .next s.leaveUnanswered
  | .lateAnswer _ => .next s
  | .reset => .next s.blockReset

/-- One step. -/
def step (s : State) : Host.Outcome State Fault Refusal :=
  match s.inputs with
  | [] => freeRun s
  | x :: rest => deliver x { s with inputs := rest }

/-- `s` with a CMD write of the word as the next host access, so that the next step issues exactly that command (log 13). A command is one
32-bit write: the number's bits above `nbits` are 0. -/
def State.withFetchWord (s : State) (nbits w : Nat) : State :=
  { s with inputs := hostWr s.params 0x010 (BitVec.ofNat 32 (w % 2 ^ nbits)) :: s.inputs }

end Sys2Proof.Machine
end

