-- ==== Sys2Proof/Safety.lean ====
section
/-! DEFINITION. The terms statements use: the value a command is to deliver (40_command_lifecycle.md R148), the value the command in progress
will still deliver, the legal states of the engine, what the engine and what the host can see, and safe runs. -/

namespace Sys2Proof.Machine

/-- What a command delivers at its normal completion (30_encoding.md R107). -/
inductive Completion where
  /-- a value in RESULT -/
  | key (k : Key)
  /-- a message in DOUT, RESULT staying 0 -/
  | message (dout : Memory)
  /-- nothing (CLEAR) -/
  | nothing
  deriving DecidableEq, Repr

/-- The value of a command at operands `o` and input buffer `din`: the function of the command's own rule, with the cipher as its only unknown
(R148; 41 to 43). -/
def commandProgram (i : Instr) (o : Operands) (din : Memory) : Prog Completion :=
  match i with
  | .createIpek => (createIPEK o.kIn o.ksn).bind fun k => .ret (.key k)
  | .deriveKey => (deriveKey o.kIn o.ksn).bind fun k => .ret (.key k)
  | .generateKey => (generateKey o.kIn o.reg).bind fun k => .ret (.key k)
  | .encryptRegister => (encryptRegister o.kIn o.reg).bind fun b => .ret (.key (b.setWidth 128))
  | .sessionPek => (createSessionKeyPEK o.kIn o.ksn).bind fun k => .ret (.key k)
  | .sessionDek => (createSessionKeyDEK o.kIn o.ksn).bind fun k => .ret (.key k)
  | .sessionKey v => (createSessionKey o.kIn o.ksn v).bind fun k => .ret (.key k)
  | .encrypt v =>
    (encryptMessage o.kIn o.ksn (din.blocks 0 (o.len.toNat / 8)) v).bind fun bs => .ret (.message (Memory.writeBlocks [] 0 bs))
  | .decrypt v =>
    (decryptMessage o.kIn o.ksn (din.blocks 0 (o.len.toNat / 8)) v).bind fun bs => .ret (.message (Memory.writeBlocks [] 0 bs))
  | .clear => .ret .nothing

/-- What a command needs (30_encoding.md R107). -/
def commandNeeds (i : Instr) : Needs :=
  match i with
  | .createIpek => Needs.key
  | .deriveKey => Needs.key
  | .generateKey => Needs.register
  | .encryptRegister => Needs.register
  | .sessionPek => Needs.key
  | .sessionDek => Needs.key
  | .sessionKey _ => Needs.key
  | .encrypt _ => Needs.message
  | .decrypt _ => Needs.message
  | .clear => Needs.nothing

/-- How a command starts once every check passes (R134), or what CLEAR does (44_control.md R230). -/
def commandStart (i : Instr) (s : State) : State :=
  match i with
  | .createIpek => s.start i.opcode .pin .ipekL
  | .deriveKey => s.startWalk i.opcode
  | .generateKey => s.start i.opcode .pin .gen
  | .encryptRegister => s.start i.opcode .pin .ereg
  | .sessionPek => s.startWalk i.opcode
  | .sessionDek => s.startWalk i.opcode
  | .sessionKey v => s.start i.opcode v .ipekL
  | .encrypt v => s.start i.opcode v .ipekL
  | .decrypt v => s.start i.opcode v .ipekL
  | .clear => s.clearAll

/-- The state at the normal completion of a command that was issued in `s` (R132, R136, R138). -/
def State.delivered (s : State) (c : Completion) : State :=
  match c with
  | .key k => s.clearOnIssue.complete (some k)
  | .message d => { s.clearOnIssue with dout := d }.complete none
  | .nothing => s.clearOnIssue.complete none

/-- The state at the end of command `i`, issued in `s`: its value if every request is answered, else the error completion ADAPTER_FAILURE with
the first failing request's code (R143, R148). -/
def State.commandEnd (s : State) (i : Instr) : State :=
  match (commandProgram i s.ops s.din).eval s.adapter with
  | .ok c => s.delivered c
  | .error x => s.clearOnIssue.raise .adapterFailure i.opcode x

/-- The engine can take command `i`: it is idle, the operands of R107 are valid and LEN legal (R133). -/
def State.accepts (s : State) (i : Instr) : Prop :=
  s.busy = false ∧ s.issueError (commandNeeds i) = none

/-- The default schedule runs: no input is left, and nothing is outstanding: so every request the command sends is answered (70_reset_and_hazards.md R285). -/
def State.quiet (s : State) : Prop :=
  s.inputs = [] ∧ s.pend = none ∧ s.silent = false ∧ s.answers = []

/-! The command in progress: what its remaining phases compute, from PH, OPC and the working registers. -/

/-- From the session key of ENCRYPT and DECRYPT on, with `bi` blocks done (43_data_cipher.md R213, R214). -/
def messageRest (s : State) (sk : Key) (cv : Block) (bi : Nat) (dout : Memory) : Prog Completion :=
  let bs := s.din.blocks bi (s.ops.len.toNat / 8 - bi)
  (if s.work.opc = 0x08 then cbcEncrypt sk cv bs else cbcDecrypt sk cv bs).bind fun out =>
    .ret (.message (dout.writeBlocks bi out))

/-- From the session key on (42_session_variants.md R193, R197). -/
def sessionRest (s : State) (sk : Key) : Prog Completion :=
  if s.work.opc = 0x08 ∨ s.work.opc = 0x09 then messageRest s sk 0 0 s.dout else .ret (.key sk)

/-- From the walk's result on (41_ipek_walk.md R168; 42_session_variants.md R197). -/
def walkRest (s : State) (k : Key) : Prog Completion :=
  if s.work.opc = 0x02 then .ret (.key k)
  else if s.work.pinPath then sessionRest s (k ^^^ pekMask)
  else (diversify (k ^^^ dekMask)).bind (sessionRest s)

/-- From the IPEK on (41_ipek_walk.md R163). -/
def ipekRest (s : State) (k : Key) : Prog Completion :=
  if s.work.opc = 0x01 then .ret (.key k)
  else (deriveKey k s.ops.ksn).bind (walkRest s)

/-- What the command in progress still computes. In IDLE there is none. -/
def State.rest (s : State) : Prog Completion :=
  match s.work.ph with
  | .idle => .ret .nothing
  | .ipekL => (createIPEK s.ops.kIn s.ops.ksn).bind (ipekRest s)
  | .ipekR => .call (.tdesE (s.ops.kIn ^^^ keyMask) (ipekRegister s.ops.ksn)) fun c => ipekRest s (s.work.tl ++ c)
  | .walk =>
    (walkIterations s.ops.ksn (s.work.sr.toNat.log2 + 1)
      { kreg := s.work.kreg, cur := s.work.cur, sr := s.work.sr }).bind fun w => walkRest s w.cur
  | .dekL => (diversify s.work.cur).bind (sessionRest s)
  | .dekR => .call (.tdesE s.work.cur (lo64 s.work.cur)) fun c => sessionRest s (s.work.tl ++ c)
  | .data => messageRest s s.work.sk s.work.cv s.work.bi.toNat s.dout
  | .gen => (generateKey s.ops.kIn s.ops.reg).bind fun k => .ret (.key k)
  | .ereg => (encryptRegister s.ops.kIn s.ops.reg).bind fun b => .ret (.key (b.setWidth 128))

/-- What the command in progress will deliver: its value, or the code of the first request that will fail. It is fixed at issue (R148, R149). -/
def State.expected (s : State) : Except FailCode Completion :=
  (s.rest.resume s.answers).eval s.adapter

/-- The requests the command in progress will still have answered, in order, the pending one first (R143, R150). -/
def State.requestsToCome (s : State) : List Request :=
  (s.rest.resume s.answers).requests s.adapter

/-- The registers the host reads show the end `e` of a command with opcode `opc`: RESULT, DOUT, DONE, ERR, ERRCODE and ERRINFO (R136, R137). -/
def State.shows (s : State) (opc : BitVec 8) (e : Except FailCode Completion) : Prop :=
  match e with
  | .ok (.key k) =>
    s.done = true ∧ s.err = false ∧ s.errCode = .none ∧ s.failOp = 0 ∧ s.adapterCode = 0 ∧ s.result = k ∧ s.dout = []
  | .ok (.message d) =>
    s.done = true ∧ s.err = false ∧ s.errCode = .none ∧ s.failOp = 0 ∧ s.adapterCode = 0 ∧ s.result = 0 ∧ s.dout = d
  | .ok .nothing => False
  | .error x =>
    s.done = false ∧ s.err = true ∧ s.errCode = .adapterFailure ∧ s.failOp = opc ∧ s.adapterCode = x ∧ s.result = 0 ∧
      s.dout = []

/-- The walk as the tree walk of 41_ipek_walk.md R171: bit `b - 1` down to bit 0 of the counter; at a set bit `c`, generateKey gets the KSN's low 64
bits with every bit below `c` cleared (R171 (e)). -/
def treeWalk (ksn : Ksn) : Nat → Key → Prog Key
  | 0, k => .ret k
  | b + 1, k =>
    if ksn.getLsbD b then (generateKey k (((ksn.setWidth 64) >>> b) <<< b)).bind (treeWalk ksn b) else treeWalk ksn b k

/-- How many of the 21 counter bits of a KSN are set. -/
def counterBits (ksn : Ksn) : Nat := (List.range 21).countP fun b => ksn.getLsbD b

/-! Runs. -/

/-- `n` steps, stopping at the first fault or refusal. -/
def runSteps : Nat → State → StepOutcome
  | 0, s => .next s
  | n + 1, s =>
    match step s with
    | .next t => runSteps n t
    | .fault f => .fault f
    | .refused r => .refused r

/-- The step in which input `x` comes first and the schedule of `s` after it. -/
def State.after (s : State) (x : Input) : StepOutcome := step { s with inputs := x :: s.inputs }

/-- The state an error found at issue leaves (40_command_lifecycle.md R132, R137): written out field by field. -/
def State.issueFailed (s : State) (e : ErrCode) (failOp : BitVec 8) : State :=
  { s with
    busy := false, done := false, err := true, errCode := e, failOp := failOp, adapterCode := 0, result := 0, dout := []
    work := { ph := .idle, opc := 0, var := .pin, cur := 0, kreg := 0, sr := 0, tl := 0, sk := 0, bi := 0, cv := 0 }
    answers := [] }

/-- The state a normal completion with value `v` in RESULT leaves, given DOUT (40_command_lifecycle.md R136, R138): written out field by field. -/
def State.completed (s : State) (v : Key) (dout : Memory) : State :=
  { s with
    busy := false, done := true, result := v, dout := dout
    work := { ph := .idle, opc := 0, var := .pin, cur := 0, kreg := 0, sr := 0, tl := 0, sk := 0, bi := 0, cv := 0 }
    answers := [] }

/-! Legal states. -/

/-- The parameters are legal (00_scope.md R8). -/
def paramsLegal (p : Params) : Prop :=
  p.dbufBytes % 8 = 0 ∧ 8 ≤ p.dbufBytes ∧ p.dbufBytes ≤ 1024 ∧ p.base % 4096 = 0

/-- A buffer is canonical and lies within its size (10_state.md R47). -/
def Memory.within (m : Memory) (n : Nat) : Prop := m.wf = true ∧ ∀ c ∈ m, c.1 < n

/-- The answers had so far are no more than the computation asks for. -/
def Prog.fits {α : Type} (p : Prog α) (answers : List Block) : Prop :=
  match answers with
  | [] => True
  | r :: rs =>
    match p with
    | .ret _ => False
    | .call _ k => Prog.fits (k r) rs
termination_by structural answers

/-- LEN is legal for ENCRYPT and DECRYPT (10_state.md R37). -/
def State.lenLegal (s : State) : Prop :=
  s.ops.len.toNat % 8 = 0 ∧ 8 ≤ s.ops.len.toNat ∧ s.ops.len.toNat ≤ s.params.dbufBytes

/-- PH, OPC and VAR of a command in progress agree (40_command_lifecycle.md R134, R150), and the working registers its phase reads are in
range. -/
def State.phaseLegal (s : State) : Prop :=
  match s.work.ph with
  | .idle => False
  | .ipekL => s.work.opc ∈ [0x01#8, 0x07#8, 0x08#8, 0x09#8]
  | .ipekR => s.work.opc ∈ [0x01#8, 0x07#8, 0x08#8, 0x09#8]
  | .walk => s.work.opc ∈ [0x02#8, 0x05#8, 0x06#8, 0x07#8, 0x08#8, 0x09#8] ∧ s.work.sr ≠ 0
  | .dekL => s.work.opc = 0x06 ∨ (s.work.opc ∈ [0x07#8, 0x08#8, 0x09#8] ∧ s.work.var = .data)
  | .dekR => s.work.opc = 0x06 ∨ (s.work.opc ∈ [0x07#8, 0x08#8, 0x09#8] ∧ s.work.var = .data)
  | .data => s.work.opc ∈ [0x08#8, 0x09#8] ∧ s.work.bi.toNat < s.ops.len.toNat / 8 ∧
      ∀ a, 8 * s.work.bi.toNat ≤ a → s.dout.read a = 0
  | .gen => s.work.opc = 0x03
  | .ereg => s.work.opc = 0x04

/-- The cipher port agrees with the phase action: the answers had are answers to its requests, and the pending request is its next one
(R141). -/
def State.portLegal (s : State) : Prop :=
  Prog.fits (phaseAction { s with answers := [] }) s.answers ∧
  match s.pend with
  | none => True
  | some q => ∃ k, (phaseAction { s with answers := [] }).resume s.answers = .call q k

/-- What holds while a command is in progress (10_state.md R35, R42, R45; 40_command_lifecycle.md R133, R139). -/
structure State.Running (s : State) : Prop where
  phase : s.phaseLegal
  port : s.portLegal
  flags : s.done = false ∧ s.err = false ∧ s.result = 0
  noOutput : s.work.ph ≠ .data → s.dout = []
  length : s.work.opc ∈ [0x08#8, 0x09#8] → s.lenLegal

/-- What holds between commands: everything is scrubbed and nothing is outstanding (R138; 10_state.md R45, R46). -/
structure State.Idle (s : State) : Prop where
  scrubbed : s.work = Working.scrubbed
  noRequest : s.pend = none
  noAnswers : s.answers = []

/-- The legal states of the engine. -/
structure State.Legal (s : State) : Prop where
  params : paramsLegal s.params
  din : s.din.within s.params.dbufBytes
  dout : s.dout.within s.params.dbufBytes
  running : s.busy = true → s.Running
  idle : s.busy = false → s.Idle
  oneEnd : ¬(s.done = true ∧ s.err = true)
  unanswered : s.silent = true → s.pend ≠ none
  noError : s.err = false → s.errCode = .none ∧ s.failOp = 0 ∧ s.adapterCode = 0
  error : s.err = true → s.errCode ≠ .none ∧ s.result = 0 ∧ s.dout = []
  adapterOnly : s.errCode ≠ .adapterFailure → s.adapterCode = 0

/-! Views. -/

/-- All that a step of engine or adapter reads (R135, R144), with RESULT, which it writes. -/
def State.engineView (s : State) :
    Params × Bool × Operands × Memory × Memory × Working × Option Request × Bool × List Block × Key :=
  (s.params, s.busy, s.ops, s.din, s.dout, s.work, s.pend, s.silent, s.answers, s.result)

/-- All that a host read can depend on: no key operand, no working register, no request, and no DOUT byte while busy (60_exceptions.md R258,
R260). -/
structure HostView where
  dbufBytes : Nat
  base : Nat
  status : Word
  errinfo : Word
  ctrl : Word
  ksn : Ksn
  reg : Block
  len : BitVec 16
  result : Key
  din : Memory
  dout : Memory
  deriving DecidableEq, Repr

/-- The host's view of a state. -/
def State.hostView (s : State) : HostView :=
  { dbufBytes := s.params.dbufBytes, base := s.params.base, status := s.statusWord, errinfo := s.errinfoWord,
    ctrl := s.ctrlWord, ksn := s.ops.ksn, reg := s.ops.reg, len := s.ops.len, result := s.result, din := s.din,
    dout := if s.busy then [] else s.dout }

/-! Safe runs. -/

/-- A host program is safe if no access of it gets a bus error (93_implementation_defined.md I8). -/
def State.safe (s : State) : Prop := s.resp ≠ some .busError

/-- The end of a host program's run (40_command_lifecycle.md R151). -/
def State.ended (s : State) : Prop := s.inputs = [] ∧ s.busy = false ∧ s.pend = none

end Sys2Proof.Machine
end

