-- ==== Sys2Proof/Certificates/Slice0/Obligations.lean ====
section
/-! DEFINITION. The statements for the provers. Each is about the machine of Sys2Proof/Machine; each cites the rules of spec/ it formalises.
`hostWr p OFF d` and `hostRd p OFF` are the 32-bit accesses at BASE + OFF (30_encoding.md R110); `s.after x` is the step in which the
input `x` comes first. -/

open Sys2Proof Sys2Proof.Machine

/-! Encoding (30_encoding.md). -/

/-- R102: the words of the table, written out, decode to their commands. -/
def Obligations.TableWordsDecode : Prop :=
  decode 0x00000001#32 = .ok .createIpek ∧ decode 0x00000002#32 = .ok .deriveKey ∧
  decode 0x00000003#32 = .ok .generateKey ∧ decode 0x00000004#32 = .ok .encryptRegister ∧
  decode 0x00000005#32 = .ok .sessionPek ∧ decode 0x00000006#32 = .ok .sessionDek ∧
  decode 0x00000007#32 = .ok (.sessionKey .pin) ∧ decode 0x00000107#32 = .ok (.sessionKey .data) ∧
  decode 0x00000008#32 = .ok (.encrypt .pin) ∧ decode 0x00000108#32 = .ok (.encrypt .data) ∧
  decode 0x00000009#32 = .ok (.decrypt .pin) ∧ decode 0x00000109#32 = .ok (.decrypt .data) ∧
  decode 0x0000000F#32 = .ok .clear

/-- R103: V may be 1 only with OP 0x07, 0x08 or 0x09, and the legal command words are exactly the 13 listed. -/
def Obligations.LegalWordsAreTheThirteen : Prop :=
  (∀ w : Word, (∃ i, decode w = .ok i) ↔
    w ∈ [0x00000001#32, 0x00000002#32, 0x00000003#32, 0x00000004#32, 0x00000005#32, 0x00000006#32, 0x00000007#32,
      0x00000008#32, 0x00000009#32, 0x0000000F#32, 0x00000107#32, 0x00000108#32, 0x00000109#32]) ∧
  ∀ (w : Word) (i : Instr), decode w = .ok i → w.getLsbD 8 = true →
    w.extractLsb' 0 8 = 0x07#8 ∨ w.extractLsb' 0 8 = 0x08#8 ∨ w.extractLsb' 0 8 = 0x09#8

/-- R106: decoding is the total function of the rule's three checks, in its order. -/
def Obligations.DecodeFollowsTheChecks : Prop :=
  ∀ w : Word,
    let op := w.extractLsb' 0 8
    let defined := (1 ≤ op.toNat ∧ op.toNat ≤ 9) ∨ op.toNat = 0x0F
    (w.extractLsb' 9 23 ≠ 0 → decode w = .error .reservedBits) ∧
    (w.extractLsb' 9 23 = 0 → ¬defined → decode w = .error .reservedOp) ∧
    (w.extractLsb' 9 23 = 0 → defined → w.getLsbD 8 = true → ¬(7 ≤ op.toNat ∧ op.toNat ≤ 9) →
      decode w = .error .variantNotTaken) ∧
    (w.extractLsb' 9 23 = 0 → defined → (w.getLsbD 8 = false ∨ (7 ≤ op.toNat ∧ op.toNat ≤ 9)) →
      ∃ i : Instr, decode w = .ok i ∧ i.opcode = op ∧ i.variant = if w.getLsbD 8 then .data else .pin)

/-- Decode and encode agree, both ways: no bit of a command word is dropped. -/
def Obligations.DecodeEncodeAgree : Prop :=
  (∀ i : Instr, decode (encode i) = .ok i) ∧ ∀ (w : Word) (i : Instr), decode w = .ok i → encode i = w

/-! The step and the issue of a command (40_command_lifecycle.md). -/

/-- A step whose next input is a CMD write of a legal word runs the decoded command, the input taken off the schedule and the host's write
accepted; and so does a step on a state made by `withFetchWord`. -/
def Obligations.StepRunsTheDecodedCommand : Prop :=
  (∀ (s : State) (rest : List Input) (w : Word) (i : Instr),
    s.inputs = hostWr s.params 0x010 w :: rest → decode w = .ok i →
      step s = exec i { s with inputs := rest, resp := some .accepted }) ∧
  ∀ (s : State) (w : Word) (i : Instr), decode w = .ok i →
    step (s.withFetchWord 32 w.toNat) = exec i { s with resp := some .accepted }

/-- R131, R132, R134: an accepted command clears STATUS's result flags, ERRCODE, ERRINFO, RESULT and DOUT, and starts in its phase. -/
def Obligations.AcceptedCommandStarts : Prop :=
  ∀ s : State, s.busy = false → s.ops.kinWm = 0b1111#4 →
    let c : State := { s with done := false, err := false, errCode := .none, failOp := 0, adapterCode := 0, result := 0, dout := [],
                              busy := true }
    let fromIpek := fun (op : BitVec 8) (v : Variant) =>
      (Host.Outcome.next { c with work := { s.work with opc := op, var := v, ph := .ipekL } } : StepOutcome)
    let fromKey := fun (op : BitVec 8) =>
      (Host.Outcome.next { c with work := { s.work with
        opc := op, var := .pin, ph := .walk, cur := s.ops.kIn, sr := 0x100000#21,
        kreg := s.ops.ksn.setWidth 64 &&& 0xFFFFFFFFFFE00000#64 } } : StepOutcome)
    let fromReg := fun (op : BitVec 8) (ph : Phase) =>
      (Host.Outcome.next { c with work := { s.work with opc := op, var := .pin, ph := ph } } : StepOutcome)
    (s.ops.ksnWm = 0b111#3 →
      exec .createIpek s = fromIpek 0x01#8 .pin ∧ exec .deriveKey s = fromKey 0x02#8 ∧
      exec .sessionPek s = fromKey 0x05#8 ∧ exec .sessionDek s = fromKey 0x06#8 ∧
      (∀ v, exec (.sessionKey v) s = fromIpek 0x07#8 v) ∧
      (s.ops.len.toNat % 8 = 0 → 8 ≤ s.ops.len.toNat → s.ops.len.toNat ≤ s.params.dbufBytes →
        ∀ v, exec (.encrypt v) s = fromIpek 0x08#8 v ∧ exec (.decrypt v) s = fromIpek 0x09#8 v)) ∧
    (s.ops.regWm = 0b11#2 →
      exec .generateKey s = fromReg 0x03#8 .gen ∧ exec .encryptRegister s = fromReg 0x04#8 .ereg)

/-- R230: CLEAR, performed within its issue: operands, valid masks, buffers, RESULT, ERRINFO and working registers become 0, DONE is set and BUSY
stays 0; CTRL and WR_IGN keep their values. While busy it is ignored and sets WR_IGN. A second CLEAR changes nothing more. Any other word
with its operation code is illegal. -/
def Obligations.ClearScrubsEverything : Prop :=
  (∀ s : State, s.busy = false →
    let t : State := { s with
      ops := { kIn := 0, ksn := 0, reg := 0, len := 0, kinWm := 0, ksnWm := 0, regWm := 0 }
      done := true, err := false, errCode := .none, failOp := 0, adapterCode := 0, result := 0, din := [], dout := []
      work := { ph := .idle, opc := 0, var := .pin, cur := 0, kreg := 0, sr := 0, tl := 0, sk := 0, bi := 0, cv := 0 }
      answers := [] }
    exec .clear s = .next t ∧ exec .clear t = .next t ∧ t.irq = t.irqEn) ∧
  (∀ s : State, s.busy = true → exec .clear s = .next { s with wrIgn := true }) ∧
  ∀ w : Word, w.extractLsb' 0 8 = 0x0F#8 → w ≠ 0x0000000F#32 → ∃ e, decode w = .error e

/-- R133, R249: the checks of issue in their order, the first that fails giving the error completion with its code and `failOp = w[7:0]`; a word that
does not decode fails first of all. -/
def Obligations.IssueChecksInOrder : Prop :=
  ∀ s : State, s.busy = false →
    (∀ (w : Word) (e : Illegal), decode w = .error e →
      s.after (hostWr s.params 0x010 w) =
        .next { s.issueFailed .illegalCommand (w.extractLsb' 0 8) with resp := some .accepted }) ∧
    ∀ i : Instr,
      let needsKsn := i ≠ .generateKey ∧ i ≠ .encryptRegister
      let needsReg := i = .generateKey ∨ i = .encryptRegister
      let needsLen := ∃ v, i = .encrypt v ∨ i = .decrypt v
      let kin := s.ops.kinWm = 0b1111#4
      let ksn := needsKsn → s.ops.ksnWm = 0b111#3
      let reg := needsReg → s.ops.regWm = 0b11#2
      let len := s.ops.len.toNat
      i ≠ .clear →
        (¬kin → exec i s = .next (s.issueFailed .invalidArgument i.opcode)) ∧
        (kin → ¬ksn → exec i s = .next (s.issueFailed .invalidArgument i.opcode)) ∧
        (kin → ksn → ¬reg → exec i s = .next (s.issueFailed .invalidArgument i.opcode)) ∧
        (kin → ksn → needsLen → len = 0 → exec i s = .next (s.issueFailed .invalidArgument i.opcode)) ∧
        (kin → ksn → needsLen → len % 8 ≠ 0 → exec i s = .next (s.issueFailed .cipherPrecondition i.opcode)) ∧
        (kin → ksn → needsLen → len ≠ 0 → len % 8 = 0 → s.params.dbufBytes < len →
          exec i s = .next (s.issueFailed .lengthRange i.opcode))

/-- R245: every word with a reserved operation code, a reserved bit set, or V = 1 on a command without variant ends at issue in ILLEGAL_COMMAND. -/
def Obligations.IllegalWordEndsInIllegalCommand : Prop :=
  ∀ (s : State) (w : Word), s.busy = false →
    let op := (w.extractLsb' 0 8).toNat
    (w.extractLsb' 9 23 ≠ 0 ∨ ¬((1 ≤ op ∧ op ≤ 9) ∨ op = 0x0F) ∨ (w.getLsbD 8 = true ∧ ¬(7 ≤ op ∧ op ≤ 9))) →
      s.after (hostWr s.params 0x010 w) =
        .next { s.issueFailed .illegalCommand (w.extractLsb' 0 8) with resp := some .accepted }

/-- R139: while BUSY = 1 a write of CMD (any word), LEN, K_IN, KSN, REG or DIN is ignored and sets WR_IGN; CTRL and STATUS writes take effect; a write of
a read-only register is ignored as always. -/
def Obligations.WritesWhileBusyAreIgnored : Prop :=
  ∀ (s : State) (d : Word), s.busy = true → s.params.dbufBytes ≤ 0x400 →
    let p := s.params
    let ignored : StepOutcome := .next { s with wrIgn := true, resp := some .accepted }
    s.after (hostWr p 0x010 d) = ignored ∧ s.after (hostWr p 0x014 d) = ignored ∧
    (∀ off ∈ [0x020, 0x024, 0x028, 0x02C, 0x030, 0x034, 0x038, 0x040, 0x044], s.after (hostWr p off d) = ignored) ∧
    (∀ k, k % 4 = 0 → k < p.dbufBytes → s.after (hostWr p (0x800 + k) d) = ignored) ∧
    s.after (hostWr p 0x008 d) = .next { s with irqEn := d.getLsbD 0, resp := some .accepted } ∧
    s.after (hostWr p 0x00C d) = .next { s with
      done := s.done && !d.getLsbD 1, err := s.err && !d.getLsbD 2, wrIgn := s.wrIgn && !d.getLsbD 3
      errCode := if d.getLsbD 2 then .none else s.errCode, failOp := if d.getLsbD 2 then 0 else s.failOp
      adapterCode := if d.getLsbD 2 then 0 else s.adapterCode, resp := some .accepted } ∧
    (∀ off ∈ [0x000, 0x004, 0x018, 0x050, 0x054, 0x058, 0x05C],
      s.after (hostWr p off d) = .next { s with resp := some .accepted }) ∧
    (∀ k, k % 4 = 0 → k < p.dbufBytes → s.after (hostWr p (0xC00 + k) d) = .next { s with resp := some .accepted }) ∧
    ∀ i, exec i s = .next { s with wrIgn := true }

/-- The frame of issuing a command other than CLEAR: the operands, the valid masks, LEN, CTRL, the parameters, PEND and every byte of DIN are as
before; WR_IGN is as before unless the engine was busy; DOUT's bytes all read 0, or, when the engine was busy, are as before. -/
def Obligations.IssueFrame : Prop :=
  ∀ (i : Instr) (s t : State), i ≠ .clear → exec i s = .next t →
    t.ops = s.ops ∧ t.irqEn = s.irqEn ∧ t.params = s.params ∧ t.pend = s.pend ∧ t.silent = s.silent ∧ t.inputs = s.inputs ∧ t.resp = s.resp ∧
    (∀ a, t.din.read a = s.din.read a) ∧
    (s.busy = false → t.wrIgn = s.wrIgn ∧ t.done = false ∧ t.result = 0 ∧ ∀ a, t.dout.read a = 0) ∧
    (s.busy = true → t.work = s.work ∧ t.busy = true ∧ t.done = s.done ∧ t.err = s.err ∧ t.errCode = s.errCode ∧
      t.failOp = s.failOp ∧ t.adapterCode = s.adapterCode ∧ t.result = s.result ∧ t.answers = s.answers ∧
      ∀ a, t.dout.read a = s.dout.read a)

/-! Reset (70_reset_and_hazards.md). -/

/-- R51: every piece of state after reset, and the constants. -/
def Obligations.ResetValues : Prop :=
  let s := State.reset
  idWord = 0x444B5054#32 ∧ s.paramWord = BitVec.ofNat 32 s.params.dbufBytes ∧ s.irqEn = false ∧ s.statusWord = 0 ∧
  s.busy = false ∧ s.done = false ∧ s.err = false ∧ s.wrIgn = false ∧ s.errCode = .none ∧ s.ops.kinV = false ∧
  s.ops.ksnV = false ∧ s.ops.regV = false ∧ s.ops.len = 0 ∧ s.errinfoWord = 0 ∧ s.ops.kIn = 0 ∧ s.ops.ksn = 0 ∧ s.ops.reg = 0 ∧
  s.ops.kinWm = 0 ∧ s.ops.ksnWm = 0 ∧ s.ops.regWm = 0 ∧ s.result = 0 ∧ (∀ a, s.din.read a = 0 ∧ s.dout.read a = 0) ∧
  s.work.opc = 0 ∧ s.work.var = .pin ∧ s.work.cur = 0 ∧ s.work.kreg = 0 ∧ s.work.sr = 0 ∧ s.work.tl = 0 ∧ s.work.sk = 0 ∧
  s.work.bi = 0 ∧ s.work.cv = 0 ∧ s.work.ph = .idle ∧ s.pend = none ∧ s.irq = false ∧
  reg3Mask = 0x1FFFFF#21 ∧ shiftRegMask = 0x100000#21 ∧ reg8Mask = 0xFFFFFFFFFFE00000#64 ∧
  ls16Mask = 0x0000000000000000FFFFFFFFFFFFFFFF#128 ∧ ms16Mask = 0xFFFFFFFFFFFFFFFF0000000000000000#128 ∧
  keyMask = 0xC0C0C0C000000000C0C0C0C000000000#128 ∧ ksnMask = 0xFFFFFFFFFFFFFFE00000#80 ∧
  pekMask = 0x00000000000000FF00000000000000FF#128 ∧ dekMask = 0x0000000000FF00000000000000FF0000#128

/-- R270, R271: asserting reset, at any time, sets every piece of state to its reset value, and the parameters stay; so a reset during a command
abandons it with no completion and no interrupt, and drops the outstanding request. Its answer changes no state, whenever it arrives. (What the
host does next and last got back, `inputs` and `resp`, is not the engine's state: log 16.) -/
def Obligations.ResetAtAnyTime : Prop :=
  (∀ s : State, ∃ t,
    s.after .reset = .next t ∧
    { t with inputs := [], resp := none } = { State.reset with params := s.params } ∧
    t.busy = false ∧ t.done = false ∧ t.err = false ∧ t.irq = false ∧ t.pend = none ∧ t.work.ph = .idle) ∧
  ∀ (s : State) (r : Response), s.after (.lateAnswer r) = .next s

/-- R272: until the host writes operands, every command but CLEAR fails with INVALID_ARGUMENT, CLEAR succeeds, and an illegal word fails with
ILLEGAL_COMMAND. -/
def Obligations.AfterResetCommandsNeedOperands : Prop :=
  State.reset.busy = false ∧ State.reset.work.ph = .idle ∧ State.reset.irqEn = false ∧ State.reset.irq = false ∧
  (∀ i, i ≠ .clear → exec i State.reset = .next (State.reset.issueFailed .invalidArgument i.opcode)) ∧
  exec .clear State.reset = .next { State.reset with done := true } ∧
  ∀ (w : Word) (e : Illegal), decode w = .error e →
    State.reset.after (hostWr State.reset.params 0x010 w) =
      .next { State.reset.issueFailed .illegalCommand (w.extractLsb' 0 8) with resp := some .accepted }

/-! The phases (41_ipek_walk.md, 42_session_variants.md, 43_data_cipher.md). An engine step with `answers` shorter than the phase's calls sends the next
request; with all of them it ends the phase action. -/

/-- R162, R163: the phases IPEK_L and IPEK_R. -/
def Obligations.IpekPhases : Prop :=
  ∀ (s : State) (c : Block), s.inputs = [] → s.busy = true → s.pend = none →
    let r := ((s.ops.ksn &&& 0xFFFFFFFFFFFFFFE00000#80) >>> 16).setWidth 64
    let key2 := s.ops.kIn ^^^ 0xC0C0C0C000000000C0C0C0C000000000#128
    (s.work.ph = .ipekL → s.answers = [] → step s = .next { s with pend := some (.tdesE s.ops.kIn r) }) ∧
    (s.work.ph = .ipekL → s.answers = [c] →
      step s = .next { s with answers := [], work := { s.work with tl := c, ph := .ipekR } }) ∧
    (s.work.ph = .ipekR → s.answers = [] → step s = .next { s with pend := some (.tdesE key2 r) }) ∧
    (s.work.ph = .ipekR → s.answers = [c] → s.work.opc = 0x01#8 →
      step s = .next (s.completed (s.work.tl ++ c) s.dout)) ∧
    (s.work.ph = .ipekR → s.answers = [c] → s.work.opc ≠ 0x01#8 →
      step s = .next { s with answers := [], work := { s.work with
        cur := s.work.tl ++ c, tl := 0, ph := .walk, sr := 0x100000#21
        kreg := s.ops.ksn.setWidth 64 &&& 0xFFFFFFFFFFE00000#64 } })

/-- R167: one iteration of the walk before the last: with the counter bit clear only SR changes and nothing is sent; with it set, two DES_E requests, left
first, and then KREG, CUR and SR change together. -/
def Obligations.WalkIteration : Prop :=
  ∀ (s : State) (a b : Block), s.inputs = [] → s.busy = true → s.pend = none → s.work.ph = .walk → s.work.sr >>> 1 ≠ 0 →
    let set := (s.work.sr.setWidth 80 &&& s.ops.ksn &&& 0x1FFFFF#80) ≠ 0
    let kreg := s.work.kreg ||| s.work.sr.setWidth 64
    let cur := s.work.cur
    let cur' := cur ^^^ 0xC0C0C0C000000000C0C0C0C000000000#128
    (¬set → s.answers = [] → step s = .next { s with work := { s.work with sr := s.work.sr >>> 1 } }) ∧
    (set → s.answers = [] → step s = .next { s with pend := some (.desE (hi64 cur') (lo64 cur' ^^^ kreg)) }) ∧
    (set → s.answers = [a] → step s = .next { s with pend := some (.desE (hi64 cur) (lo64 cur ^^^ kreg)) }) ∧
    (set → s.answers = [a, b] → step s = .next { s with answers := [], work := { s.work with
      kreg := kreg, cur := (lo64 cur' ^^^ a) ++ (lo64 cur ^^^ b), sr := s.work.sr >>> 1 } })

/-- R168, R197: the end of the walk, in the same step as its last iteration: DERIVE_KEY completes; the PIN path masks with PekMask and completes or goes on
to the data; the Data path masks with DekMask and goes on to DEK_L. -/
def Obligations.WalkEndAndVariantStep : Prop :=
  ∀ (s : State) (w : WalkRegs), s.inputs = [] → s.busy = true → s.pend = none → s.work.ph = .walk →
    (walkIteration s.ops.ksn { kreg := s.work.kreg, cur := s.work.cur, sr := s.work.sr }).resume s.answers = .ret w →
    w.sr = 0 →
    let pek := w.cur ^^^ 0x00000000000000FF00000000000000FF#128
    let dek := w.cur ^^^ 0x0000000000FF00000000000000FF0000#128
    let walked : Working := { s.work with kreg := w.kreg, cur := w.cur, sr := 0 }
    let data : StepOutcome := .next { s with answers := [], work := { walked with cur := dek, ph := .dekL } }
    let message : StepOutcome := .next { s with answers := [], work := { walked with sk := pek, bi := 0, cv := 0, ph := .data } }
    (s.work.opc = 0x02#8 → step s = .next (s.completed w.cur s.dout)) ∧
    (s.work.opc = 0x05#8 → step s = .next (s.completed pek s.dout)) ∧
    (s.work.opc = 0x06#8 → step s = data) ∧
    (s.work.opc = 0x07#8 → s.work.var = .pin → step s = .next (s.completed pek s.dout)) ∧
    (s.work.opc = 0x08#8 ∨ s.work.opc = 0x09#8 → s.work.var = .pin → step s = message) ∧
    (s.work.opc = 0x07#8 ∨ s.work.opc = 0x08#8 ∨ s.work.opc = 0x09#8 → s.work.var = .data → step s = data)

/-- R193: the phases DEK_L and DEK_R, with `dataInit()` (R212) for ENCRYPT and DECRYPT. -/
def Obligations.DekPhases : Prop :=
  ∀ (s : State) (c : Block), s.inputs = [] → s.busy = true → s.pend = none →
    let sk := s.work.tl ++ c
    (s.work.ph = .dekL → s.answers = [] →
      step s = .next { s with pend := some (.tdesE s.work.cur (s.work.cur.extractLsb' 64 64)) }) ∧
    (s.work.ph = .dekL → s.answers = [c] →
      step s = .next { s with answers := [], work := { s.work with tl := c, ph := .dekR } }) ∧
    (s.work.ph = .dekR → s.answers = [] →
      step s = .next { s with pend := some (.tdesE s.work.cur (s.work.cur.extractLsb' 0 64)) }) ∧
    (s.work.ph = .dekR → s.answers = [c] → s.work.opc = 0x06#8 ∨ s.work.opc = 0x07#8 →
      step s = .next (s.completed sk s.dout)) ∧
    (s.work.ph = .dekR → s.answers = [c] → s.work.opc = 0x08#8 ∨ s.work.opc = 0x09#8 →
      step s = .next { s with answers := [], work := { s.work with sk := sk, tl := 0, bi := 0, cv := 0, ph := .data } })

/-- R213, R214: the phase DATA of ENCRYPT and of DECRYPT: one request per block, the block written to DOUT, the chaining, and completion at the last
block. -/
def Obligations.DataPhases : Prop :=
  ∀ (s : State) (x : Block), s.inputs = [] → s.busy = true → s.pend = none → s.work.ph = .data →
    8 * s.work.bi.toNat + 8 ≤ s.params.dbufBytes →
    let off := 8 * s.work.bi.toNat
    let b := s.din.read64 off
    let last := (s.work.bi + 1).toNat = s.ops.len.toNat / 8
    let next := fun (out chain : Block) =>
      ({ s with answers := [], dout := s.dout.write64 off out
                work := { s.work with cv := chain, bi := s.work.bi + 1 } } : State)
    (s.work.opc = 0x08#8 → s.answers = [] → step s = .next { s with pend := some (.tdesE s.work.sk (b ^^^ s.work.cv)) }) ∧
    (s.work.opc = 0x08#8 → s.answers = [x] → ¬last → step s = .next (next x x)) ∧
    (s.work.opc = 0x08#8 → s.answers = [x] → last → step s = .next (s.completed s.result (s.dout.write64 off x))) ∧
    (s.work.opc = 0x09#8 → s.answers = [] → step s = .next { s with pend := some (.tdesD s.work.sk b) }) ∧
    (s.work.opc = 0x09#8 → s.answers = [x] → ¬last → step s = .next (next (x ^^^ s.work.cv) b)) ∧
    (s.work.opc = 0x09#8 → s.answers = [x] → last →
      step s = .next (s.completed s.result (s.dout.write64 off (x ^^^ s.work.cv))))

/-- R172 to R175: the phases GEN and EREG: the requests of generateKey, left first, and of encryptRegister, and their values in RESULT, the 64-bit one
with RESULT[127:64] = 0. -/
def Obligations.GenAndEregPhases : Prop :=
  ∀ (s : State) (a b : Block), s.inputs = [] → s.busy = true → s.pend = none →
    let k := s.ops.kIn
    let k' := k ^^^ 0xC0C0C0C000000000C0C0C0C000000000#128
    (s.work.ph = .gen → s.answers = [] → step s = .next { s with pend := some (.desE (hi64 k') (lo64 k' ^^^ s.ops.reg)) }) ∧
    (s.work.ph = .gen → s.answers = [a] → step s = .next { s with pend := some (.desE (hi64 k) (lo64 k ^^^ s.ops.reg)) }) ∧
    (s.work.ph = .gen → s.answers = [a, b] →
      step s = .next (s.completed ((lo64 k' ^^^ a) ++ (lo64 k ^^^ b)) s.dout)) ∧
    (s.work.ph = .ereg → s.answers = [] → step s = .next { s with pend := some (.desE (hi64 k) (lo64 k ^^^ s.ops.reg)) }) ∧
    (s.work.ph = .ereg → s.answers = [a] → step s = .next (s.completed (0#64 ++ (lo64 k ^^^ a)) s.dout))

/-! The cipher port (40_command_lifecycle.md R140 to R147). -/

/-- R141, R143, R244: the adapter's answer: a block goes to the suspended action; a failure ends the command at once in ADAPTER_FAILURE, with OPC and the
adapter's code unchanged, nothing pending and nothing sent again. The reference adapter never fails. -/
def Obligations.AdapterAnswerOrFailure : Prop :=
  (∀ (s : State) (q : Request), s.inputs = [] → s.pend = some q → s.silent = false →
    (∀ r, s.adapter q = .ok r → step s = .next { s with pend := none, answers := s.answers ++ [r] }) ∧
    ∀ x, s.adapter q = .fail x →
      step s = .next { s with
        pend := none, answers := [], busy := false, err := true, errCode := .adapterFailure, failOp := s.work.opc
        adapterCode := x, result := 0, dout := []
        work := { ph := .idle, opc := 0, var := .pin, cur := 0, kreg := 0, sr := 0, tl := 0, sk := 0, bi := 0, cv := 0 } }) ∧
  ∀ (q : Request) (x : FailCode), referenceAdapter q ≠ .fail x

/-- R147: any pending request may go unanswered; then no input but reset changes PEND, BUSY or a working register; CMD writes, CLEAR included, are
ignored; reset ends the command. (That a run with no input left is then named a hang is the model's choice, log 8.) -/
def Obligations.HangUntilReset : Prop :=
  ∀ (s : State) (q : Request), s.busy = true → s.pend = some q →
    s.after .noAnswer = .next { s with silent := true } ∧
    (s.silent = true →
      (∀ x t, x ≠ Input.reset → s.after x = .next t →
        t.busy = true ∧ t.pend = some q ∧ t.silent = true ∧ t.work = s.work ∧ t.answers = s.answers) ∧
      (∀ w, s.after (hostWr s.params 0x010 w) = .next { s with wrIgn := true, resp := some .accepted }) ∧
      (∃ t, s.after .reset = .next t ∧ t.busy = false ∧ t.pend = none ∧ t.silent = false) ∧
      (s.inputs = [] → step s = .fault .hang))

/-- R142: which requests the engine sends, by phase: DES_E from the walk, GEN and EREG; TDES_E from the IPEK, the DEK and ENCRYPT's data; TDES_D only from
DECRYPT's data. -/
def Obligations.RequestsByPhase : Prop :=
  ∀ (s t : State) (q : Request), s.Legal → s.pend = none → step s = .next t → t.pend = some q →
    match q with
    | .desE _ _ => s.work.ph = .walk ∨ s.work.ph = .gen ∨ s.work.ph = .ereg
    | .tdesE _ _ => s.work.ph = .ipekL ∨ s.work.ph = .ipekR ∨ s.work.ph = .dekL ∨ s.work.ph = .dekR ∨
        (s.work.ph = .data ∧ s.work.opc = 0x08#8)
    | .tdesD _ _ => s.work.ph = .data ∧ s.work.opc = 0x09#8

/-- R145: the reference adapter on the three kinds of request, with K1 = key[127:64] and K2 = key[63:0]. -/
def Obligations.ReferenceAdapterIsTwoKeyEde : Prop :=
  ∀ (a : Adapter) (k64 b : Block) (k : Key), a.backend = .reference → a.table = [] →
    adapterAnswer a (.desE k64 b) = .ok (desEncrypt k64 b) ∧
    adapterAnswer a (.tdesE k b) =
      .ok (desEncrypt (k.extractLsb' 64 64) (desDecrypt (k.extractLsb' 0 64) (desEncrypt (k.extractLsb' 64 64) b))) ∧
    adapterAnswer a (.tdesD k b) =
      .ok (desDecrypt (k.extractLsb' 64 64) (desEncrypt (k.extractLsb' 0 64) (desDecrypt (k.extractLsb' 64 64) b)))

/-- R145, 93_implementation_defined.md G5: DES ignores bit 0, the parity bit, of each key byte. (The DES tables are PRESUMED, log 4.) -/
def Obligations.DesIgnoresParityBits : Prop :=
  ∀ key b : Block,
    desEncrypt (key &&& 0xFEFEFEFEFEFEFEFE#64) b = desEncrypt key b ∧
    desDecrypt (key &&& 0xFEFEFEFEFEFEFEFE#64) b = desDecrypt key b

/-! What a command delivers (R148, R150). Under the default schedule (log 22), every request answered, the machine comes from an accepted command to its
end within the bound, and the state is then exactly the one the command's function gives. A bound counts the model's finer steps: a phase action with
m requests is 2 m + 1 of them (log 9). -/

/-- CREATE_IPEK (41_ipek_walk.md R160, R161): 2 phase actions and 2 requests, so at most 6 steps. (Steps of log 9, under the default schedule of log 22.) -/
def Obligations.CreateIpekDelivers : Prop :=
  ∀ s : State, s.accepts .createIpek → s.quiet →
    ∃ t, exec .createIpek s = .next t ∧ runSteps 6 t = .next (
      match (createIPEK s.ops.kIn s.ops.ksn).eval s.adapter with
      | .ok k => s.clearOnIssue.completed k []
      | .error x => { s.issueFailed .adapterFailure 0x01#8 with adapterCode := x })

/-- DERIVE_KEY (41_ipek_walk.md R165, R170): 21 phase actions and at most 42 requests. (Steps of log 9, under the default schedule of log 22.) -/
def Obligations.DeriveKeyDelivers : Prop :=
  ∀ s : State, s.accepts .deriveKey → s.quiet →
    ∃ t, exec .deriveKey s = .next t ∧ runSteps 105 t = .next (
      match (deriveKey s.ops.kIn s.ops.ksn).eval s.adapter with
      | .ok k => s.clearOnIssue.completed k []
      | .error x => { s.issueFailed .adapterFailure 0x02#8 with adapterCode := x })

/-- GENERATE_KEY and ENCRYPT_REGISTER (41_ipek_walk.md R172 to R175): one phase action with two requests, and with one. (Steps of log 9, under the default schedule of log 22.) -/
def Obligations.RegisterCommandsDeliver : Prop :=
  ∀ s : State, s.quiet →
    (s.accepts .generateKey →
      ∃ t, exec .generateKey s = .next t ∧ runSteps 5 t = .next (
        match (generateKey s.ops.kIn s.ops.reg).eval s.adapter with
        | .ok k => s.clearOnIssue.completed k []
        | .error x => { s.issueFailed .adapterFailure 0x03#8 with adapterCode := x })) ∧
    (s.accepts .encryptRegister →
      ∃ t, exec .encryptRegister s = .next t ∧ runSteps 3 t = .next (
        match (encryptRegister s.ops.kIn s.ops.reg).eval s.adapter with
        | .ok b => s.clearOnIssue.completed (0#64 ++ b) []
        | .error x => { s.issueFailed .adapterFailure 0x04#8 with adapterCode := x }))

/-- SESSION_PEK, SESSION_DEK and SESSION_KEY (42_session_variants.md R190 to R196). (Steps of log 9, under the default schedule of log 22.) -/
def Obligations.SessionCommandsDeliver : Prop :=
  ∀ s : State, s.accepts .sessionPek → s.quiet →
    let ends := fun (op : BitVec 8) (p : Prog Key) =>
      match p.eval s.adapter with
      | .ok k => s.clearOnIssue.completed k []
      | .error x => { s.issueFailed .adapterFailure op with adapterCode := x }
    (∃ t, exec .sessionPek s = .next t ∧
      runSteps 105 t = .next (ends 0x05#8 (createSessionKeyPEK s.ops.kIn s.ops.ksn))) ∧
    (∃ t, exec .sessionDek s = .next t ∧
      runSteps 111 t = .next (ends 0x06#8 (createSessionKeyDEK s.ops.kIn s.ops.ksn))) ∧
    ∀ v, ∃ t, exec (.sessionKey v) s = .next t ∧
      runSteps 117 t = .next (ends 0x07#8 (createSessionKey s.ops.kIn s.ops.ksn v))

/-- ENCRYPT and DECRYPT (43_data_cipher.md R210, R211, R215, R216): DOUT holds the result's blocks and 0 elsewhere, RESULT is 0.
(Steps of log 9, under the default schedule of log 22.) -/
def Obligations.MessageCommandsDeliver : Prop :=
  ∀ (s : State) (v : Variant), s.accepts (.encrypt v) → s.quiet →
    let n := s.ops.len.toNat / 8
    let ends := fun (op : BitVec 8) (p : Prog (List Block)) =>
      match p.eval s.adapter with
      | .ok bs => s.clearOnIssue.completed 0 (Memory.writeBlocks [] 0 bs)
      | .error x => { s.issueFailed .adapterFailure op with adapterCode := x }
    (∃ t, exec (.encrypt v) s = .next t ∧
      runSteps (117 + 3 * n) t = .next (ends 0x08#8 (encryptMessage s.ops.kIn s.ops.ksn (s.din.blocks 0 n) v))) ∧
    ∃ t, exec (.decrypt v) s = .next t ∧
      runSteps (117 + 3 * n) t = .next (ends 0x09#8 (decryptMessage s.ops.kIn s.ops.ksn (s.din.blocks 0 n) v))

/-- R148, R149: at issue, what the command will deliver is its function's value at the operands of that moment. -/
def Obligations.IssueFixesTheOutcome : Prop :=
  ∀ (s : State) (i : Instr), s.Legal → i ≠ .clear → s.accepts i →
    ∃ t, exec i s = .next t ∧ t.busy = true ∧ t.expected = (commandProgram i s.ops s.din).eval s.adapter

/-- R148, R149: whatever is interleaved with a command in progress (host accesses, ticks, polls, late answers), short of a reset, what it will deliver
never changes, and at its end the registers show exactly that. -/
def Obligations.OutcomeHoldsForEverySchedule : Prop :=
  ∀ s t : State, s.Legal → s.busy = true → s.inputs.head? ≠ some .reset → step s = .next t →
    (t.busy = true → t.expected = s.expected) ∧ (t.busy = false → t.shows s.work.opc s.expected)

/-- R143, R150: the requests of a command are those of its function, in its order: at issue all of them are still to come; a step changes what is still to
come only by an answer to the pending request, the first of them. -/
def Obligations.RequestsAreSentInOrder : Prop :=
  (∀ (s t : State) (i : Instr), s.Legal → i ≠ .clear → s.accepts i → exec i s = .next t →
    t.requestsToCome = (commandProgram i s.ops s.din).requests s.adapter) ∧
  ∀ s t : State, s.Legal → s.busy = true → s.inputs.head? ≠ some .reset → step s = .next t → t.busy = true →
    (t.requestsToCome = s.requestsToCome ∧ (∀ q, s.pend = some q → t.pend = some q) ∧
      ∀ q, t.pend = some q → s.requestsToCome.head? = some q) ∨
    ∃ q, s.pend = some q ∧ t.pend = none ∧ s.requestsToCome = q :: t.requestsToCome

/-- R150: from every legal state with a command in progress the default schedule ends it within 117 + 3 n steps, n = LEN / 8: at most 25 + n phase
actions and 46 + n requests. (Steps of log 9, under the default schedule of log 22.) -/
def Obligations.EveryCommandEnds : Prop :=
  ∀ s : State, s.Legal → s.busy = true → s.inputs = [] → s.silent = false →
    ∃ n t, n ≤ 117 + 3 * (s.ops.len.toNat / 8) ∧ runSteps n s = .next t ∧ t.busy = false ∧ t.pend = none ∧
      (t.done = true ∨ t.err = true)

/-- R217: under an adapter whose TDES_D undoes its TDES_E, DECRYPT of ENCRYPT's output, with the same operands, gives back DIN's first LEN bytes.
(Steps of log 9, under the default schedule of log 22.) -/
def Obligations.DecryptUndoesEncrypt : Prop :=
  ∀ (s : State) (v : Variant), s.Legal → s.accepts (.encrypt v) → s.quiet →
    (∀ k b c, s.adapter (.tdesE k b) = .ok c → s.adapter (.tdesD k c) = .ok b) →
    ∃ t u, exec (.encrypt v) s = .next t ∧ runSteps (117 + 3 * (s.ops.len.toNat / 8)) t = .next u ∧
      (u.done = true →
        ∃ t' u', exec (.decrypt v) { u with din := u.dout } = .next t' ∧
          runSteps (117 + 3 * (s.ops.len.toNat / 8)) t' = .next u' ∧ u'.done = true ∧
          ∀ a, a < s.ops.len.toNat → u'.dout.read a = s.din.read a)

/-- R218: after a normal completion of ENCRYPT or DECRYPT the bytes of DOUT at and past LEN are 0, and DIN is as it was.
(Steps of log 9, under the default schedule of log 22.) -/
def Obligations.MessageTailIsZero : Prop :=
  ∀ (s t u : State) (v : Variant) (i : Instr), s.Legal → (i = .encrypt v ∨ i = .decrypt v) → s.accepts i → s.quiet →
    exec i s = .next t → runSteps (117 + 3 * (s.ops.len.toNat / 8)) t = .next u → u.done = true →
      (∀ a, s.ops.len.toNat ≤ a → u.dout.read a = 0) ∧ u.din = s.din

/-! Invariants and rules of the whole machine. -/

/-- The reset state is legal. -/
def Obligations.ResetIsLegal : Prop := State.reset.Legal

/-- Every step from a legal state gives a legal state: BUSY, DONE, ERR, RESULT, PH, OPC, VAR, PEND, LEN and the buffers agree as 10_state.md R35, R42, R45 and
R46 say. -/
def Obligations.LegalStatesAreKept : Prop :=
  ∀ s t : State, s.Legal → step s = .next t → t.Legal

/-- From a legal state a step always answers a next state, but for a hang: a request pending that is never answered, and no input left (R147). No
command is refused and no phase is without an action. -/
def Obligations.OnlyAHangStops : Prop :=
  ∀ s : State, s.Legal →
    (∃ t, step s = .next t) ∨
    (step s = .fault .hang ∧ s.inputs = [] ∧ s.pend ≠ none ∧ s.silent = true)

/-- Every step keeps the buffers canonical, from any state. -/
def Obligations.BuffersStayCanonical : Prop :=
  ∀ s t : State, s.din.wf = true → s.dout.wf = true → step s = .next t → t.din.wf = true ∧ t.dout.wf = true

/-- R138: every completion, normal or error, leaves every working register 0 and PH idle: the end of a command in progress, and every CMD write
that leaves the engine idle, whether its word is legal (CLEAR, a failed check) or illegal. -/
def Obligations.CompletionScrubs : Prop :=
  (∀ s t : State, s.busy = true → step s = .next t → t.busy = false →
    t.work = { ph := .idle, opc := 0, var := .pin, cur := 0, kreg := 0, sr := 0, tl := 0, sk := 0, bi := 0, cv := 0 } ∧
      t.pend = none ∧ t.answers = []) ∧
  (∀ (w : Word) (s t : State), s.busy = false → s.after (hostWr s.params 0x010 w) = .next t → t.busy = false →
    t.work = { ph := .idle, opc := 0, var := .pin, cur := 0, kreg := 0, sr := 0, tl := 0, sk := 0, bi := 0, cv := 0 } ∧ t.answers = []) ∧
  ∀ (i : Instr) (s t : State), s.busy = false → exec i s = .next t → t.busy = false →
    t.work = { ph := .idle, opc := 0, var := .pin, cur := 0, kreg := 0, sr := 0, tl := 0, sk := 0, bi := 0, cv := 0 }

/-- 60_exceptions.md R258, R260: what a host read gives depends only on the host's view: no key operand, working register, request or, while busy, DOUT byte
reaches it. -/
def Obligations.HiddenStateIsUnobservable : Prop :=
  ∀ (s t : State) (addr : Nat) (width : AccessWidth), s.hostView = t.hostView →
    (s.busAccess (.read addr width)).resp = (t.busAccess (.read addr width)).resp

/-- R139, R149: while busy no host access changes anything a step of engine or adapter reads. -/
def Obligations.HostCannotDisturbTheEngine : Prop :=
  ∀ (s : State) (a : Access), s.busy = true →
    ∃ t, s.after (.access a) = .next t ∧ t.engineView = s.engineView ∧ t.inputs = s.inputs

/-- R135, R144: a step of engine or adapter is determined by what it reads: two states alike there stay alike there, and if their result flags are alike
too (DONE, ERR, ERRCODE, ERRINFO), those stay alike. And R130, R85: an explicit tick takes the very step that the enabled agent takes when no input is
left; with the pending request never answered no agent is enabled, and the tick changes nothing (log 8, log 20). -/
def Obligations.EngineStepIsDetermined : Prop :=
  (∀ s t s' : State, s.engineView = t.engineView → s.after .tick = .next s' →
    ∃ t', t.after .tick = .next t' ∧ s'.engineView = t'.engineView ∧
      (s.done = t.done → s.err = t.err → s.errCode = t.errCode → s.failOp = t.failOp → s.adapterCode = t.adapterCode →
        s'.done = t'.done ∧ s'.err = t'.err ∧ s'.errCode = t'.errCode ∧ s'.failOp = t'.failOp ∧
          s'.adapterCode = t'.adapterCode)) ∧
  (∀ s : State, s.inputs = [] → (s.pend = none ∨ s.silent = false) → s.after .tick = step s) ∧
  ∀ s : State, s.pend ≠ none → s.silent = true → s.after .tick = .next s

/-- R82, R135: the frame of a step of engine or adapter: the operands, the valid masks, DIN, CTRL, WR_IGN, the parameters and the host's side are as before;
RESULT changes only at a completion; DOUT becomes all 0 only in the error completion of a failed request (one is pending only while busy, State.Legal),
and else changes only in block BI, in the step that ends the action of DATA. -/
def Obligations.EngineStepFrame : Prop :=
  ∀ s t : State, s.dout.wf = true → s.inputs = [] → step s = .next t →
    t.params = s.params ∧ t.ops = s.ops ∧ t.irqEn = s.irqEn ∧ t.wrIgn = s.wrIgn ∧ t.silent = s.silent ∧ t.inputs = s.inputs ∧
    t.resp = s.resp ∧ (∀ a, t.din.read a = s.din.read a) ∧
    (t.busy = true → t.result = s.result ∧ t.done = s.done ∧ t.err = s.err ∧ t.errCode = s.errCode ∧ t.failOp = s.failOp ∧
      t.adapterCode = s.adapterCode) ∧
    ((∃ q x, s.pend = some q ∧ s.adapter q = .fail x ∧ t.busy = false ∧ t.err = true ∧ t.errCode = .adapterFailure ∧
        t.adapterCode = x ∧ ∀ a, t.dout.read a = 0) ∨
      ∀ a, (s.busy = true → s.work.ph = .data → s.pend = none → t.pend = none →
          a < 8 * s.work.bi.toNat ∨ 8 * s.work.bi.toNat + 8 ≤ a) → t.dout.read a = s.dout.read a)

/-- R86, R280: while idle, RESULT and DOUT hold until a CMD write or a reset, and so does ERRINFO until a write of 1 to STATUS.ERR. -/
def Obligations.ResultsLastUntilTheNextIssue : Prop :=
  ∀ (s t : State) (x : Input), s.busy = false → s.pend = none → s.after x = .next t → x ≠ .reset →
    (∀ w, x ≠ hostWr s.params 0x010 w) →
    t.busy = false ∧ t.result = s.result ∧ t.dout = s.dout ∧
    ((∀ d, x = hostWr s.params 0x00C d → d.getLsbD 2 = false) →
      t.err = s.err ∧ t.errCode = s.errCode ∧ t.failOp = s.failOp ∧ t.adapterCode = s.adapterCode)

/-- R231, R284: WR_IGN, once set, is cleared only by a STATUS write with bit 3 set or by reset. -/
def Obligations.WrIgnIsSticky : Prop :=
  ∀ (s t : State) (x : Input), s.wrIgn = true → s.after x = .next t → t.wrIgn = false →
    x = .reset ∨ ∃ d, x = hostWr s.params 0x00C d ∧ d.getLsbD 3 = true

/-! The register window (10_state.md, 20_memory.md). -/

/-- R31 to R42, R72: what a read of each mapped register returns, STATUS with the error codes' numbers of 60_exceptions.md R241; it changes nothing
else. -/
def Obligations.RegisterReads : Prop :=
  ∀ s : State, s.params.dbufBytes ≤ 0x400 →
    let reads := fun (off : Nat) (w : Word) => s.after (hostRd s.params off) = .next { s with resp := some (.word w) }
    let bit := fun (b : Bool) => if b then 1#1 else 0#1
    let code := match s.errCode with
      | .none => 0#4
      | .invalidArgument => 1#4
      | .cipherPrecondition => 2#4
      | .adapterFailure => 3#4
      | .illegalCommand => 4#4
      | .lengthRange => 5#4
    reads 0x000 0x444B5054#32 ∧ reads 0x004 (0#16 ++ BitVec.ofNat 16 s.params.dbufBytes) ∧
    reads 0x008 (0#31 ++ bit s.irqEn) ∧
    reads 0x00C (0#21 ++ bit (s.ops.regWm = 0b11#2) ++ bit (s.ops.ksnWm = 0b111#3) ++ bit (s.ops.kinWm = 0b1111#4) ++
      code ++ bit s.wrIgn ++ bit s.err ++ bit s.done ++ bit s.busy) ∧
    reads 0x014 (0#16 ++ s.ops.len) ∧ reads 0x018 (0#16 ++ s.failOp ++ s.adapterCode) ∧
    reads 0x030 (0#16 ++ s.ops.ksn.extractLsb' 64 16) ∧ reads 0x034 (s.ops.ksn.extractLsb' 32 32) ∧
    reads 0x038 (s.ops.ksn.extractLsb' 0 32) ∧
    reads 0x040 (s.ops.reg.extractLsb' 32 32) ∧ reads 0x044 (s.ops.reg.extractLsb' 0 32) ∧
    reads 0x050 (s.result.extractLsb' 96 32) ∧ reads 0x054 (s.result.extractLsb' 64 32) ∧
    reads 0x058 (s.result.extractLsb' 32 32) ∧ reads 0x05C (s.result.extractLsb' 0 32) ∧
    ∀ k, k % 4 = 0 → k < s.params.dbufBytes →
      reads (0x800 + k) (s.din.read k ++ s.din.read (k + 1) ++ s.din.read (k + 2) ++ s.din.read (k + 3)) ∧
      reads (0xC00 + k)
        (if s.busy then 0 else s.dout.read k ++ s.dout.read (k + 1) ++ s.dout.read (k + 2) ++ s.dout.read (k + 3))

/-- R78: a write to a read-only register is ignored without a bus error and never sets WR_IGN; a read of a write-only register returns 0. -/
def Obligations.ReadOnlyAndWriteOnly : Prop :=
  ∀ (s : State) (d : Word), s.params.dbufBytes ≤ 0x400 →
    (∀ off ∈ [0x000, 0x004, 0x018, 0x050, 0x054, 0x058, 0x05C],
      s.after (hostWr s.params off d) = .next { s with resp := some .accepted }) ∧
    (∀ k, k % 4 = 0 → k < s.params.dbufBytes →
      s.after (hostWr s.params (0xC00 + k) d) = .next { s with resp := some .accepted }) ∧
    ∀ off ∈ [0x010, 0x020, 0x024, 0x028, 0x02C], s.after (hostRd s.params off) = .next { s with resp := some (.word 0) }

/-- R34, R35, R37, R39 to R41, R43, R72, R252: what a write of each writable register but CMD does while idle, the operands each with its bit of the write
mask, STATUS clearing the fields written with 1 (bit 2: ERR, ERRCODE and ERRINFO together), and nothing else. -/
def Obligations.RegisterWritesWhileIdle : Prop :=
  ∀ (s : State) (d : Word), s.busy = false → s.params.dbufBytes ≤ 0x400 →
    let writes := fun (off : Nat) (t : State) => s.after (hostWr s.params off d) = .next { t with resp := some .accepted }
    let k := s.ops.kIn
    let n := s.ops.ksn
    let r := s.ops.reg
    writes 0x008 { s with irqEn := d.getLsbD 0 } ∧
    writes 0x00C { s with
      done := s.done && !d.getLsbD 1, err := s.err && !d.getLsbD 2, wrIgn := s.wrIgn && !d.getLsbD 3
      errCode := if d.getLsbD 2 then .none else s.errCode, failOp := if d.getLsbD 2 then 0 else s.failOp
      adapterCode := if d.getLsbD 2 then 0 else s.adapterCode } ∧
    writes 0x014 { s with ops := { s.ops with len := d.extractLsb' 0 16 } } ∧
    writes 0x020 { s with ops := { s.ops with kIn := d ++ k.extractLsb' 0 96, kinWm := s.ops.kinWm ||| 0b0001#4 } } ∧
    writes 0x024 { s with ops := { s.ops with kIn := k.extractLsb' 96 32 ++ d ++ k.extractLsb' 0 64, kinWm := s.ops.kinWm ||| 0b0010#4 } } ∧
    writes 0x028 { s with ops := { s.ops with kIn := k.extractLsb' 64 64 ++ d ++ k.extractLsb' 0 32, kinWm := s.ops.kinWm ||| 0b0100#4 } } ∧
    writes 0x02C { s with ops := { s.ops with kIn := k.extractLsb' 32 96 ++ d, kinWm := s.ops.kinWm ||| 0b1000#4 } } ∧
    writes 0x030 { s with ops := { s.ops with ksn := d.extractLsb' 0 16 ++ n.extractLsb' 0 64, ksnWm := s.ops.ksnWm ||| 0b001#3 } } ∧
    writes 0x034 { s with ops := { s.ops with ksn := n.extractLsb' 64 16 ++ d ++ n.extractLsb' 0 32, ksnWm := s.ops.ksnWm ||| 0b010#3 } } ∧
    writes 0x038 { s with ops := { s.ops with ksn := n.extractLsb' 32 48 ++ d, ksnWm := s.ops.ksnWm ||| 0b100#3 } } ∧
    writes 0x040 { s with ops := { s.ops with reg := d ++ r.extractLsb' 0 32, regWm := s.ops.regWm ||| 0b01#2 } } ∧
    writes 0x044 { s with ops := { s.ops with reg := r.extractLsb' 32 32 ++ d, regWm := s.ops.regWm ||| 0b10#2 } } ∧
    ∀ off, off % 4 = 0 → off < s.params.dbufBytes → writes (0x800 + off) { s with din := s.din.write32 off d }

/-- R111, R43: the pseudo-operations wkey, wksn and wreg load the whole operand and make it valid; and one turn of poll is a read of STATUS, after which, while
BUSY = 1, poll goes on. (That one tick stands between two of its reads is the model's choice, log 14.) -/
def Obligations.PseudoOperationsLoadOperands : Prop :=
  (∀ (s : State) (k : Key) (n : Ksn) (g : Block), s.busy = false →
    let run := fun (m : Nat) (l : List Input) => runSteps m { s with inputs := l ++ s.inputs }
    run 4 (hostWkey s.params k) = .next { s with ops := { s.ops with kIn := k, kinWm := 0b1111#4 }, resp := some .accepted } ∧
    run 3 (hostWksn s.params n) = .next { s with ops := { s.ops with ksn := n, ksnWm := 0b111#3 }, resp := some .accepted } ∧
    run 2 (hostWreg s.params g) = .next { s with ops := { s.ops with reg := g, regWm := 0b11#2 }, resp := some .accepted }) ∧
  ∀ (s t : State) (w : Word), s.after (hostRd s.params 0x00C) = .next t → t.resp = some (.word w) →
    s.after .poll = .next { t with inputs := if w.getLsbD 0 then .tick :: .poll :: s.inputs else s.inputs }

/-- R72, R81: while idle a DIN word written is read back, big-endian byte by byte, and every byte outside it is as before. -/
def Obligations.DinWordWriteAndReadBack : Prop :=
  ∀ (s : State) (off : Nat) (d : Word), s.busy = false → s.params.dbufBytes ≤ 0x400 → s.din.wf = true → off % 4 = 0 →
    off < s.params.dbufBytes →
    ∃ t, s.after (hostWr s.params (0x800 + off) d) = .next t ∧
      t.after (hostRd t.params (0x800 + off)) = .next { t with resp := some (.word d) } ∧
      t.din.read off = d.extractLsb' 24 8 ∧ t.din.read (off + 1) = d.extractLsb' 16 8 ∧
      t.din.read (off + 2) = d.extractLsb' 8 8 ∧ t.din.read (off + 3) = d.extractLsb' 0 8 ∧
      ∀ a, a < off ∨ off + 4 ≤ a → t.din.read a = s.din.read a

/-- R73 to R76: an access of another width, misaligned, or at an unmapped offset of the window gets a bus error and changes no engine state. -/
def Obligations.BusErrorsChangeNothing : Prop :=
  ∀ (s : State) (a : Access) (off : Nat), s.params.dbufBytes ≤ 0x400 → off < 4096 → a.addr = s.params.base + off →
    (a.width ≠ .w32 ∨ off % 4 ≠ 0 ∨ off = 0x01C ∨ off = 0x03C ∨ (0x048 ≤ off ∧ off < 0x050) ∨ (0x060 ≤ off ∧ off < 0x800) ∨
      (0x800 + s.params.dbufBytes ≤ off ∧ off < 0xC00) ∨ 0xC00 + s.params.dbufBytes ≤ off) →
    s.after (.access a) = .next { s with resp := some .busError }

/-- R79: a read changes nothing but what the host gets back, and every accepted write that is no CMD write is idempotent. R83, R84: an access outside the
4096-byte window changes nothing (and gets no answer from this block: DEDUCED, log 11). -/
def Obligations.ReadsArePureAndWritesIdempotent : Prop :=
  (∀ (s : State) (addr : Nat) (width : AccessWidth), ∃ r, s.after (.access (.read addr width)) = .next { s with resp := r }) ∧
  (∀ (s t : State) (a : Access), s.din.wf = true → commandWrite s.params a = none → s.after (.access a) = .next t →
    t.after (.access a) = .next t) ∧
  ∀ (s : State) (a : Access), (a.addr < s.params.base ∨ s.params.base + 4096 ≤ a.addr) →
    s.after (.access a) = .next { s with resp := none }

/-- R48, R254: irq is IRQ_EN and (DONE or ERR); a write of 1 to DONE and ERR lowers it, a write of 0 to IRQ_EN lowers it and leaves DONE and ERR, and so does
issuing a command that is accepted and does not complete at once. -/
def Obligations.InterruptLine : Prop :=
  ∀ s : State,
    (s.irq = true ↔ s.irqEn = true ∧ (s.done = true ∨ s.err = true)) ∧
    (∃ t, s.after (hostWr s.params 0x00C 0x00000006#32) = .next t ∧ t.irq = false) ∧
    (∃ t, s.after (hostWr s.params 0x008 0#32) = .next t ∧ t.irq = false ∧ t.done = s.done ∧ t.err = s.err) ∧
    ∀ i, i ≠ .clear → s.accepts i → ∃ t, exec i s = .next t ∧ t.irq = false

/-! The functions (41_ipek_walk.md). -/

/-- R164: createIPEK reads the KSN only through its bits 79 to 21; its halves are the answers for the BDK and for BDK XOR KeyMask. -/
def Obligations.IpekReadsOnlyTheDeviceId : Prop :=
  (∀ (bdk : Key) (n m : Ksn), n.extractLsb' 21 59 = m.extractLsb' 21 59 → createIPEK bdk n = createIPEK bdk m) ∧
  ∀ (ad : Request → Response) (bdk : Key) (n : Ksn) (l r : Block),
    let reg := n.extractLsb' 21 59 ++ 0#5
    ad (.tdesE bdk reg) = .ok l → ad (.tdesE (bdk ^^^ 0xC0C0C0C000000000C0C0C0C000000000#128) reg) = .ok r →
      (createIPEK bdk n).eval ad = .ok (l ++ r)

/-- R171 (a), (b): the walk never reads KSN[79:64], and with a zero counter it is its input and sends nothing. -/
def Obligations.WalkReadsOnlyTheLowBits : Prop :=
  (∀ (ipek : Key) (n m : Ksn), n.extractLsb' 0 64 = m.extractLsb' 0 64 → deriveKey ipek n = deriveKey ipek m) ∧
  ∀ (ipek : Key) (n : Ksn), n.extractLsb' 0 21 = 0 → deriveKey ipek n = .ret ipek

/-- R171 (c), R150: the walk sends two requests for each set counter bit, when all are answered. -/
def Obligations.WalkRequestsTwicePerCounterBit : Prop :=
  ∀ (ad : Request → Response) (ipek : Key) (n : Ksn), (∀ q, ∃ r, ad q = .ok r) →
    ((deriveKey ipek n).requests ad).length = 2 * counterBits n

/-- R171 (d): at the end of the walk KREG is KSN[63:0] and SR is 0. -/
def Obligations.WalkEndsWithTheKsn : Prop :=
  ∀ (ad : Request → Response) (ipek : Key) (n : Ksn) (w : WalkRegs),
    (walkIterations n 21 { kreg := walkKsnReg n, cur := ipek, sr := 0x100000#21 }).eval ad = .ok w →
      w.kreg = n.extractLsb' 0 64 ∧ w.sr = 0

/-- R165, R171 (e): the walk by shifted cursor and accumulated register is the tree walk from bit 20 down to bit 0. -/
def Obligations.WalkIsTheTreeWalk : Prop :=
  ∀ (ipek : Key) (n : Ksn), deriveKey ipek n = treeWalk n 21 ipek
end

