-- ==== Sys2Proof/Laws/State.lean ====
section
/-! SUPPORT. The updates of State, field by field: what each shared update writes and that it leaves every other field as it was. -/

namespace Sys2Proof.Machine

/-! `respond` (20_memory.md R76). -/

@[simp] theorem State.respond_params (s : State) (r : Option BusResponse) :
    (s.respond r).params = s.params := rfl
@[simp] theorem State.respond_irqEn (s : State) (r : Option BusResponse) :
    (s.respond r).irqEn = s.irqEn := rfl
@[simp] theorem State.respond_busy (s : State) (r : Option BusResponse) :
    (s.respond r).busy = s.busy := rfl
@[simp] theorem State.respond_done (s : State) (r : Option BusResponse) :
    (s.respond r).done = s.done := rfl
@[simp] theorem State.respond_err (s : State) (r : Option BusResponse) :
    (s.respond r).err = s.err := rfl
@[simp] theorem State.respond_wrIgn (s : State) (r : Option BusResponse) :
    (s.respond r).wrIgn = s.wrIgn := rfl
@[simp] theorem State.respond_errCode (s : State) (r : Option BusResponse) :
    (s.respond r).errCode = s.errCode := rfl
@[simp] theorem State.respond_failOp (s : State) (r : Option BusResponse) :
    (s.respond r).failOp = s.failOp := rfl
@[simp] theorem State.respond_adapterCode (s : State) (r : Option BusResponse) :
    (s.respond r).adapterCode = s.adapterCode := rfl
@[simp] theorem State.respond_ops (s : State) (r : Option BusResponse) :
    (s.respond r).ops = s.ops := rfl
@[simp] theorem State.respond_result (s : State) (r : Option BusResponse) :
    (s.respond r).result = s.result := rfl
@[simp] theorem State.respond_din (s : State) (r : Option BusResponse) :
    (s.respond r).din = s.din := rfl
@[simp] theorem State.respond_dout (s : State) (r : Option BusResponse) :
    (s.respond r).dout = s.dout := rfl
@[simp] theorem State.respond_work (s : State) (r : Option BusResponse) :
    (s.respond r).work = s.work := rfl
@[simp] theorem State.respond_pend (s : State) (r : Option BusResponse) :
    (s.respond r).pend = s.pend := rfl
@[simp] theorem State.respond_silent (s : State) (r : Option BusResponse) :
    (s.respond r).silent = s.silent := rfl
@[simp] theorem State.respond_answers (s : State) (r : Option BusResponse) :
    (s.respond r).answers = s.answers := rfl
@[simp] theorem State.respond_inputs (s : State) (r : Option BusResponse) :
    (s.respond r).inputs = s.inputs := rfl
@[simp] theorem State.respond_resp (s : State) (r : Option BusResponse) :
    (s.respond r).resp = r := rfl

/-! `ignoreWrite` (R139). -/

@[simp] theorem State.ignoreWrite_params (s : State) :
    (s.ignoreWrite).params = s.params := rfl
@[simp] theorem State.ignoreWrite_irqEn (s : State) :
    (s.ignoreWrite).irqEn = s.irqEn := rfl
@[simp] theorem State.ignoreWrite_busy (s : State) :
    (s.ignoreWrite).busy = s.busy := rfl
@[simp] theorem State.ignoreWrite_done (s : State) :
    (s.ignoreWrite).done = s.done := rfl
@[simp] theorem State.ignoreWrite_err (s : State) :
    (s.ignoreWrite).err = s.err := rfl
@[simp] theorem State.ignoreWrite_wrIgn (s : State) :
    (s.ignoreWrite).wrIgn = true := rfl
@[simp] theorem State.ignoreWrite_errCode (s : State) :
    (s.ignoreWrite).errCode = s.errCode := rfl
@[simp] theorem State.ignoreWrite_failOp (s : State) :
    (s.ignoreWrite).failOp = s.failOp := rfl
@[simp] theorem State.ignoreWrite_adapterCode (s : State) :
    (s.ignoreWrite).adapterCode = s.adapterCode := rfl
@[simp] theorem State.ignoreWrite_ops (s : State) :
    (s.ignoreWrite).ops = s.ops := rfl
@[simp] theorem State.ignoreWrite_result (s : State) :
    (s.ignoreWrite).result = s.result := rfl
@[simp] theorem State.ignoreWrite_din (s : State) :
    (s.ignoreWrite).din = s.din := rfl
@[simp] theorem State.ignoreWrite_dout (s : State) :
    (s.ignoreWrite).dout = s.dout := rfl
@[simp] theorem State.ignoreWrite_work (s : State) :
    (s.ignoreWrite).work = s.work := rfl
@[simp] theorem State.ignoreWrite_pend (s : State) :
    (s.ignoreWrite).pend = s.pend := rfl
@[simp] theorem State.ignoreWrite_silent (s : State) :
    (s.ignoreWrite).silent = s.silent := rfl
@[simp] theorem State.ignoreWrite_answers (s : State) :
    (s.ignoreWrite).answers = s.answers := rfl
@[simp] theorem State.ignoreWrite_inputs (s : State) :
    (s.ignoreWrite).inputs = s.inputs := rfl
@[simp] theorem State.ignoreWrite_resp (s : State) :
    (s.ignoreWrite).resp = s.resp := rfl

/-! `clearOnIssue` (R132). -/

@[simp] theorem State.clearOnIssue_params (s : State) :
    (s.clearOnIssue).params = s.params := rfl
@[simp] theorem State.clearOnIssue_irqEn (s : State) :
    (s.clearOnIssue).irqEn = s.irqEn := rfl
@[simp] theorem State.clearOnIssue_busy (s : State) :
    (s.clearOnIssue).busy = s.busy := rfl
@[simp] theorem State.clearOnIssue_done (s : State) :
    (s.clearOnIssue).done = false := rfl
@[simp] theorem State.clearOnIssue_err (s : State) :
    (s.clearOnIssue).err = false := rfl
@[simp] theorem State.clearOnIssue_wrIgn (s : State) :
    (s.clearOnIssue).wrIgn = s.wrIgn := rfl
@[simp] theorem State.clearOnIssue_errCode (s : State) :
    (s.clearOnIssue).errCode = .none := rfl
@[simp] theorem State.clearOnIssue_failOp (s : State) :
    (s.clearOnIssue).failOp = 0 := rfl
@[simp] theorem State.clearOnIssue_adapterCode (s : State) :
    (s.clearOnIssue).adapterCode = 0 := rfl
@[simp] theorem State.clearOnIssue_ops (s : State) :
    (s.clearOnIssue).ops = s.ops := rfl
@[simp] theorem State.clearOnIssue_result (s : State) :
    (s.clearOnIssue).result = 0 := rfl
@[simp] theorem State.clearOnIssue_din (s : State) :
    (s.clearOnIssue).din = s.din := rfl
@[simp] theorem State.clearOnIssue_dout (s : State) :
    (s.clearOnIssue).dout = [] := rfl
@[simp] theorem State.clearOnIssue_work (s : State) :
    (s.clearOnIssue).work = s.work := rfl
@[simp] theorem State.clearOnIssue_pend (s : State) :
    (s.clearOnIssue).pend = s.pend := rfl
@[simp] theorem State.clearOnIssue_silent (s : State) :
    (s.clearOnIssue).silent = s.silent := rfl
@[simp] theorem State.clearOnIssue_answers (s : State) :
    (s.clearOnIssue).answers = s.answers := rfl
@[simp] theorem State.clearOnIssue_inputs (s : State) :
    (s.clearOnIssue).inputs = s.inputs := rfl
@[simp] theorem State.clearOnIssue_resp (s : State) :
    (s.clearOnIssue).resp = s.resp := rfl

/-! `scrub` (R138). -/

@[simp] theorem State.scrub_params (s : State) :
    (s.scrub).params = s.params := rfl
@[simp] theorem State.scrub_irqEn (s : State) :
    (s.scrub).irqEn = s.irqEn := rfl
@[simp] theorem State.scrub_busy (s : State) :
    (s.scrub).busy = s.busy := rfl
@[simp] theorem State.scrub_done (s : State) :
    (s.scrub).done = s.done := rfl
@[simp] theorem State.scrub_err (s : State) :
    (s.scrub).err = s.err := rfl
@[simp] theorem State.scrub_wrIgn (s : State) :
    (s.scrub).wrIgn = s.wrIgn := rfl
@[simp] theorem State.scrub_errCode (s : State) :
    (s.scrub).errCode = s.errCode := rfl
@[simp] theorem State.scrub_failOp (s : State) :
    (s.scrub).failOp = s.failOp := rfl
@[simp] theorem State.scrub_adapterCode (s : State) :
    (s.scrub).adapterCode = s.adapterCode := rfl
@[simp] theorem State.scrub_ops (s : State) :
    (s.scrub).ops = s.ops := rfl
@[simp] theorem State.scrub_result (s : State) :
    (s.scrub).result = s.result := rfl
@[simp] theorem State.scrub_din (s : State) :
    (s.scrub).din = s.din := rfl
@[simp] theorem State.scrub_dout (s : State) :
    (s.scrub).dout = s.dout := rfl
@[simp] theorem State.scrub_work (s : State) :
    (s.scrub).work = Working.scrubbed := rfl
@[simp] theorem State.scrub_pend (s : State) :
    (s.scrub).pend = s.pend := rfl
@[simp] theorem State.scrub_silent (s : State) :
    (s.scrub).silent = s.silent := rfl
@[simp] theorem State.scrub_answers (s : State) :
    (s.scrub).answers = [] := rfl
@[simp] theorem State.scrub_inputs (s : State) :
    (s.scrub).inputs = s.inputs := rfl
@[simp] theorem State.scrub_resp (s : State) :
    (s.scrub).resp = s.resp := rfl

/-! `complete` (R136). -/

@[simp] theorem State.complete_params (s : State) (v : Option Key) :
    (s.complete v).params = s.params := rfl
@[simp] theorem State.complete_irqEn (s : State) (v : Option Key) :
    (s.complete v).irqEn = s.irqEn := rfl
@[simp] theorem State.complete_busy (s : State) (v : Option Key) :
    (s.complete v).busy = false := rfl
@[simp] theorem State.complete_done (s : State) (v : Option Key) :
    (s.complete v).done = true := rfl
@[simp] theorem State.complete_err (s : State) (v : Option Key) :
    (s.complete v).err = s.err := rfl
@[simp] theorem State.complete_wrIgn (s : State) (v : Option Key) :
    (s.complete v).wrIgn = s.wrIgn := rfl
@[simp] theorem State.complete_errCode (s : State) (v : Option Key) :
    (s.complete v).errCode = s.errCode := rfl
@[simp] theorem State.complete_failOp (s : State) (v : Option Key) :
    (s.complete v).failOp = s.failOp := rfl
@[simp] theorem State.complete_adapterCode (s : State) (v : Option Key) :
    (s.complete v).adapterCode = s.adapterCode := rfl
@[simp] theorem State.complete_ops (s : State) (v : Option Key) :
    (s.complete v).ops = s.ops := rfl
@[simp] theorem State.complete_result (s : State) (v : Option Key) :
    (s.complete v).result = v.getD s.result := rfl
@[simp] theorem State.complete_din (s : State) (v : Option Key) :
    (s.complete v).din = s.din := rfl
@[simp] theorem State.complete_dout (s : State) (v : Option Key) :
    (s.complete v).dout = s.dout := rfl
@[simp] theorem State.complete_work (s : State) (v : Option Key) :
    (s.complete v).work = Working.scrubbed := rfl
@[simp] theorem State.complete_pend (s : State) (v : Option Key) :
    (s.complete v).pend = s.pend := rfl
@[simp] theorem State.complete_silent (s : State) (v : Option Key) :
    (s.complete v).silent = s.silent := rfl
@[simp] theorem State.complete_answers (s : State) (v : Option Key) :
    (s.complete v).answers = [] := rfl
@[simp] theorem State.complete_inputs (s : State) (v : Option Key) :
    (s.complete v).inputs = s.inputs := rfl
@[simp] theorem State.complete_resp (s : State) (v : Option Key) :
    (s.complete v).resp = s.resp := rfl

/-! `raise` (R137). -/

@[simp] theorem State.raise_params (s : State) (e : ErrCode) (f : BitVec 8) (x : FailCode) :
    (s.raise e f x).params = s.params := rfl
@[simp] theorem State.raise_irqEn (s : State) (e : ErrCode) (f : BitVec 8) (x : FailCode) :
    (s.raise e f x).irqEn = s.irqEn := rfl
@[simp] theorem State.raise_busy (s : State) (e : ErrCode) (f : BitVec 8) (x : FailCode) :
    (s.raise e f x).busy = false := rfl
@[simp] theorem State.raise_done (s : State) (e : ErrCode) (f : BitVec 8) (x : FailCode) :
    (s.raise e f x).done = s.done := rfl
@[simp] theorem State.raise_err (s : State) (e : ErrCode) (f : BitVec 8) (x : FailCode) :
    (s.raise e f x).err = true := rfl
@[simp] theorem State.raise_wrIgn (s : State) (e : ErrCode) (f : BitVec 8) (x : FailCode) :
    (s.raise e f x).wrIgn = s.wrIgn := rfl
@[simp] theorem State.raise_errCode (s : State) (e : ErrCode) (f : BitVec 8) (x : FailCode) :
    (s.raise e f x).errCode = e := rfl
@[simp] theorem State.raise_failOp (s : State) (e : ErrCode) (f : BitVec 8) (x : FailCode) :
    (s.raise e f x).failOp = f := rfl
@[simp] theorem State.raise_adapterCode (s : State) (e : ErrCode) (f : BitVec 8) (x : FailCode) :
    (s.raise e f x).adapterCode = x := rfl
@[simp] theorem State.raise_ops (s : State) (e : ErrCode) (f : BitVec 8) (x : FailCode) :
    (s.raise e f x).ops = s.ops := rfl
@[simp] theorem State.raise_result (s : State) (e : ErrCode) (f : BitVec 8) (x : FailCode) :
    (s.raise e f x).result = 0 := rfl
@[simp] theorem State.raise_din (s : State) (e : ErrCode) (f : BitVec 8) (x : FailCode) :
    (s.raise e f x).din = s.din := rfl
@[simp] theorem State.raise_dout (s : State) (e : ErrCode) (f : BitVec 8) (x : FailCode) :
    (s.raise e f x).dout = [] := rfl
@[simp] theorem State.raise_work (s : State) (e : ErrCode) (f : BitVec 8) (x : FailCode) :
    (s.raise e f x).work = Working.scrubbed := rfl
@[simp] theorem State.raise_pend (s : State) (e : ErrCode) (f : BitVec 8) (x : FailCode) :
    (s.raise e f x).pend = s.pend := rfl
@[simp] theorem State.raise_silent (s : State) (e : ErrCode) (f : BitVec 8) (x : FailCode) :
    (s.raise e f x).silent = s.silent := rfl
@[simp] theorem State.raise_answers (s : State) (e : ErrCode) (f : BitVec 8) (x : FailCode) :
    (s.raise e f x).answers = [] := rfl
@[simp] theorem State.raise_inputs (s : State) (e : ErrCode) (f : BitVec 8) (x : FailCode) :
    (s.raise e f x).inputs = s.inputs := rfl
@[simp] theorem State.raise_resp (s : State) (e : ErrCode) (f : BitVec 8) (x : FailCode) :
    (s.raise e f x).resp = s.resp := rfl

/-! `ackError` (R35). -/

@[simp] theorem State.ackError_params (s : State) :
    (s.ackError).params = s.params := rfl
@[simp] theorem State.ackError_irqEn (s : State) :
    (s.ackError).irqEn = s.irqEn := rfl
@[simp] theorem State.ackError_busy (s : State) :
    (s.ackError).busy = s.busy := rfl
@[simp] theorem State.ackError_done (s : State) :
    (s.ackError).done = s.done := rfl
@[simp] theorem State.ackError_err (s : State) :
    (s.ackError).err = false := rfl
@[simp] theorem State.ackError_wrIgn (s : State) :
    (s.ackError).wrIgn = s.wrIgn := rfl
@[simp] theorem State.ackError_errCode (s : State) :
    (s.ackError).errCode = .none := rfl
@[simp] theorem State.ackError_failOp (s : State) :
    (s.ackError).failOp = 0 := rfl
@[simp] theorem State.ackError_adapterCode (s : State) :
    (s.ackError).adapterCode = 0 := rfl
@[simp] theorem State.ackError_ops (s : State) :
    (s.ackError).ops = s.ops := rfl
@[simp] theorem State.ackError_result (s : State) :
    (s.ackError).result = s.result := rfl
@[simp] theorem State.ackError_din (s : State) :
    (s.ackError).din = s.din := rfl
@[simp] theorem State.ackError_dout (s : State) :
    (s.ackError).dout = s.dout := rfl
@[simp] theorem State.ackError_work (s : State) :
    (s.ackError).work = s.work := rfl
@[simp] theorem State.ackError_pend (s : State) :
    (s.ackError).pend = s.pend := rfl
@[simp] theorem State.ackError_silent (s : State) :
    (s.ackError).silent = s.silent := rfl
@[simp] theorem State.ackError_answers (s : State) :
    (s.ackError).answers = s.answers := rfl
@[simp] theorem State.ackError_inputs (s : State) :
    (s.ackError).inputs = s.inputs := rfl
@[simp] theorem State.ackError_resp (s : State) :
    (s.ackError).resp = s.resp := rfl

/-! `blockReset` (R270). -/

@[simp] theorem State.blockReset_params (s : State) :
    (s.blockReset).params = s.params := rfl
@[simp] theorem State.blockReset_irqEn (s : State) :
    (s.blockReset).irqEn = State.reset.irqEn := rfl
@[simp] theorem State.blockReset_busy (s : State) :
    (s.blockReset).busy = State.reset.busy := rfl
@[simp] theorem State.blockReset_done (s : State) :
    (s.blockReset).done = State.reset.done := rfl
@[simp] theorem State.blockReset_err (s : State) :
    (s.blockReset).err = State.reset.err := rfl
@[simp] theorem State.blockReset_wrIgn (s : State) :
    (s.blockReset).wrIgn = State.reset.wrIgn := rfl
@[simp] theorem State.blockReset_errCode (s : State) :
    (s.blockReset).errCode = State.reset.errCode := rfl
@[simp] theorem State.blockReset_failOp (s : State) :
    (s.blockReset).failOp = State.reset.failOp := rfl
@[simp] theorem State.blockReset_adapterCode (s : State) :
    (s.blockReset).adapterCode = State.reset.adapterCode := rfl
@[simp] theorem State.blockReset_ops (s : State) :
    (s.blockReset).ops = State.reset.ops := rfl
@[simp] theorem State.blockReset_result (s : State) :
    (s.blockReset).result = State.reset.result := rfl
@[simp] theorem State.blockReset_din (s : State) :
    (s.blockReset).din = State.reset.din := rfl
@[simp] theorem State.blockReset_dout (s : State) :
    (s.blockReset).dout = State.reset.dout := rfl
@[simp] theorem State.blockReset_work (s : State) :
    (s.blockReset).work = State.reset.work := rfl
@[simp] theorem State.blockReset_pend (s : State) :
    (s.blockReset).pend = State.reset.pend := rfl
@[simp] theorem State.blockReset_silent (s : State) :
    (s.blockReset).silent = false := rfl
@[simp] theorem State.blockReset_answers (s : State) :
    (s.blockReset).answers = State.reset.answers := rfl
@[simp] theorem State.blockReset_inputs (s : State) :
    (s.blockReset).inputs = s.inputs := rfl
@[simp] theorem State.blockReset_resp (s : State) :
    (s.blockReset).resp = s.resp := rfl

/-! `start` (R134). -/

@[simp] theorem State.start_params (s : State) (o : BitVec 8) (v : Variant) (p : Phase) :
    (s.start o v p).params = s.params := rfl
@[simp] theorem State.start_irqEn (s : State) (o : BitVec 8) (v : Variant) (p : Phase) :
    (s.start o v p).irqEn = s.irqEn := rfl
@[simp] theorem State.start_busy (s : State) (o : BitVec 8) (v : Variant) (p : Phase) :
    (s.start o v p).busy = true := rfl
@[simp] theorem State.start_done (s : State) (o : BitVec 8) (v : Variant) (p : Phase) :
    (s.start o v p).done = s.done := rfl
@[simp] theorem State.start_err (s : State) (o : BitVec 8) (v : Variant) (p : Phase) :
    (s.start o v p).err = s.err := rfl
@[simp] theorem State.start_wrIgn (s : State) (o : BitVec 8) (v : Variant) (p : Phase) :
    (s.start o v p).wrIgn = s.wrIgn := rfl
@[simp] theorem State.start_errCode (s : State) (o : BitVec 8) (v : Variant) (p : Phase) :
    (s.start o v p).errCode = s.errCode := rfl
@[simp] theorem State.start_failOp (s : State) (o : BitVec 8) (v : Variant) (p : Phase) :
    (s.start o v p).failOp = s.failOp := rfl
@[simp] theorem State.start_adapterCode (s : State) (o : BitVec 8) (v : Variant) (p : Phase) :
    (s.start o v p).adapterCode = s.adapterCode := rfl
@[simp] theorem State.start_ops (s : State) (o : BitVec 8) (v : Variant) (p : Phase) :
    (s.start o v p).ops = s.ops := rfl
@[simp] theorem State.start_result (s : State) (o : BitVec 8) (v : Variant) (p : Phase) :
    (s.start o v p).result = s.result := rfl
@[simp] theorem State.start_din (s : State) (o : BitVec 8) (v : Variant) (p : Phase) :
    (s.start o v p).din = s.din := rfl
@[simp] theorem State.start_dout (s : State) (o : BitVec 8) (v : Variant) (p : Phase) :
    (s.start o v p).dout = s.dout := rfl
@[simp] theorem State.start_work (s : State) (o : BitVec 8) (v : Variant) (p : Phase) :
    (s.start o v p).work = { s.work with opc := o, var := v, ph := p } := rfl
@[simp] theorem State.start_pend (s : State) (o : BitVec 8) (v : Variant) (p : Phase) :
    (s.start o v p).pend = s.pend := rfl
@[simp] theorem State.start_silent (s : State) (o : BitVec 8) (v : Variant) (p : Phase) :
    (s.start o v p).silent = s.silent := rfl
@[simp] theorem State.start_answers (s : State) (o : BitVec 8) (v : Variant) (p : Phase) :
    (s.start o v p).answers = s.answers := rfl
@[simp] theorem State.start_inputs (s : State) (o : BitVec 8) (v : Variant) (p : Phase) :
    (s.start o v p).inputs = s.inputs := rfl
@[simp] theorem State.start_resp (s : State) (o : BitVec 8) (v : Variant) (p : Phase) :
    (s.start o v p).resp = s.resp := rfl

/-! `send` (R141). -/

@[simp] theorem State.send_params (s : State) (q : Request) :
    (s.send q).params = s.params := rfl
@[simp] theorem State.send_irqEn (s : State) (q : Request) :
    (s.send q).irqEn = s.irqEn := rfl
@[simp] theorem State.send_busy (s : State) (q : Request) :
    (s.send q).busy = s.busy := rfl
@[simp] theorem State.send_done (s : State) (q : Request) :
    (s.send q).done = s.done := rfl
@[simp] theorem State.send_err (s : State) (q : Request) :
    (s.send q).err = s.err := rfl
@[simp] theorem State.send_wrIgn (s : State) (q : Request) :
    (s.send q).wrIgn = s.wrIgn := rfl
@[simp] theorem State.send_errCode (s : State) (q : Request) :
    (s.send q).errCode = s.errCode := rfl
@[simp] theorem State.send_failOp (s : State) (q : Request) :
    (s.send q).failOp = s.failOp := rfl
@[simp] theorem State.send_adapterCode (s : State) (q : Request) :
    (s.send q).adapterCode = s.adapterCode := rfl
@[simp] theorem State.send_ops (s : State) (q : Request) :
    (s.send q).ops = s.ops := rfl
@[simp] theorem State.send_result (s : State) (q : Request) :
    (s.send q).result = s.result := rfl
@[simp] theorem State.send_din (s : State) (q : Request) :
    (s.send q).din = s.din := rfl
@[simp] theorem State.send_dout (s : State) (q : Request) :
    (s.send q).dout = s.dout := rfl
@[simp] theorem State.send_work (s : State) (q : Request) :
    (s.send q).work = s.work := rfl
@[simp] theorem State.send_pend (s : State) (q : Request) :
    (s.send q).pend = some q := rfl
@[simp] theorem State.send_silent (s : State) (q : Request) :
    (s.send q).silent = s.silent := rfl
@[simp] theorem State.send_answers (s : State) (q : Request) :
    (s.send q).answers = s.answers := rfl
@[simp] theorem State.send_inputs (s : State) (q : Request) :
    (s.send q).inputs = s.inputs := rfl
@[simp] theorem State.send_resp (s : State) (q : Request) :
    (s.send q).resp = s.resp := rfl

/-! `walkInit` (R166). -/

@[simp] theorem State.walkInit_params (s : State) :
    (s.walkInit).params = s.params := rfl
@[simp] theorem State.walkInit_irqEn (s : State) :
    (s.walkInit).irqEn = s.irqEn := rfl
@[simp] theorem State.walkInit_busy (s : State) :
    (s.walkInit).busy = s.busy := rfl
@[simp] theorem State.walkInit_done (s : State) :
    (s.walkInit).done = s.done := rfl
@[simp] theorem State.walkInit_err (s : State) :
    (s.walkInit).err = s.err := rfl
@[simp] theorem State.walkInit_wrIgn (s : State) :
    (s.walkInit).wrIgn = s.wrIgn := rfl
@[simp] theorem State.walkInit_errCode (s : State) :
    (s.walkInit).errCode = s.errCode := rfl
@[simp] theorem State.walkInit_failOp (s : State) :
    (s.walkInit).failOp = s.failOp := rfl
@[simp] theorem State.walkInit_adapterCode (s : State) :
    (s.walkInit).adapterCode = s.adapterCode := rfl
@[simp] theorem State.walkInit_ops (s : State) :
    (s.walkInit).ops = s.ops := rfl
@[simp] theorem State.walkInit_result (s : State) :
    (s.walkInit).result = s.result := rfl
@[simp] theorem State.walkInit_din (s : State) :
    (s.walkInit).din = s.din := rfl
@[simp] theorem State.walkInit_dout (s : State) :
    (s.walkInit).dout = s.dout := rfl
@[simp] theorem State.walkInit_work (s : State) :
    (s.walkInit).work = { s.work with kreg := walkKsnReg s.ops.ksn, sr := shiftRegMask } := rfl
@[simp] theorem State.walkInit_pend (s : State) :
    (s.walkInit).pend = s.pend := rfl
@[simp] theorem State.walkInit_silent (s : State) :
    (s.walkInit).silent = s.silent := rfl
@[simp] theorem State.walkInit_answers (s : State) :
    (s.walkInit).answers = s.answers := rfl
@[simp] theorem State.walkInit_inputs (s : State) :
    (s.walkInit).inputs = s.inputs := rfl
@[simp] theorem State.walkInit_resp (s : State) :
    (s.walkInit).resp = s.resp := rfl

/-! `dataInit` (R212). -/

@[simp] theorem State.dataInit_params (s : State) :
    (s.dataInit).params = s.params := rfl
@[simp] theorem State.dataInit_irqEn (s : State) :
    (s.dataInit).irqEn = s.irqEn := rfl
@[simp] theorem State.dataInit_busy (s : State) :
    (s.dataInit).busy = s.busy := rfl
@[simp] theorem State.dataInit_done (s : State) :
    (s.dataInit).done = s.done := rfl
@[simp] theorem State.dataInit_err (s : State) :
    (s.dataInit).err = s.err := rfl
@[simp] theorem State.dataInit_wrIgn (s : State) :
    (s.dataInit).wrIgn = s.wrIgn := rfl
@[simp] theorem State.dataInit_errCode (s : State) :
    (s.dataInit).errCode = s.errCode := rfl
@[simp] theorem State.dataInit_failOp (s : State) :
    (s.dataInit).failOp = s.failOp := rfl
@[simp] theorem State.dataInit_adapterCode (s : State) :
    (s.dataInit).adapterCode = s.adapterCode := rfl
@[simp] theorem State.dataInit_ops (s : State) :
    (s.dataInit).ops = s.ops := rfl
@[simp] theorem State.dataInit_result (s : State) :
    (s.dataInit).result = s.result := rfl
@[simp] theorem State.dataInit_din (s : State) :
    (s.dataInit).din = s.din := rfl
@[simp] theorem State.dataInit_dout (s : State) :
    (s.dataInit).dout = s.dout := rfl
@[simp] theorem State.dataInit_work (s : State) :
    (s.dataInit).work = { s.work with bi := 0, cv := 0, ph := .data } := rfl
@[simp] theorem State.dataInit_pend (s : State) :
    (s.dataInit).pend = s.pend := rfl
@[simp] theorem State.dataInit_silent (s : State) :
    (s.dataInit).silent = s.silent := rfl
@[simp] theorem State.dataInit_answers (s : State) :
    (s.dataInit).answers = s.answers := rfl
@[simp] theorem State.dataInit_inputs (s : State) :
    (s.dataInit).inputs = s.inputs := rfl
@[simp] theorem State.dataInit_resp (s : State) :
    (s.dataInit).resp = s.resp := rfl

/-! `clearAll` (R230). -/

@[simp] theorem State.clearAll_params (s : State) :
    (s.clearAll).params = s.params := rfl
@[simp] theorem State.clearAll_irqEn (s : State) :
    (s.clearAll).irqEn = s.irqEn := rfl
@[simp] theorem State.clearAll_busy (s : State) :
    (s.clearAll).busy = s.busy := rfl
@[simp] theorem State.clearAll_done (s : State) :
    (s.clearAll).done = true := rfl
@[simp] theorem State.clearAll_err (s : State) :
    (s.clearAll).err = s.err := rfl
@[simp] theorem State.clearAll_wrIgn (s : State) :
    (s.clearAll).wrIgn = s.wrIgn := rfl
@[simp] theorem State.clearAll_errCode (s : State) :
    (s.clearAll).errCode = s.errCode := rfl
@[simp] theorem State.clearAll_failOp (s : State) :
    (s.clearAll).failOp = 0 := rfl
@[simp] theorem State.clearAll_adapterCode (s : State) :
    (s.clearAll).adapterCode = 0 := rfl
@[simp] theorem State.clearAll_ops (s : State) :
    (s.clearAll).ops = Operands.cleared := rfl
@[simp] theorem State.clearAll_result (s : State) :
    (s.clearAll).result = 0 := rfl
@[simp] theorem State.clearAll_din (s : State) :
    (s.clearAll).din = [] := rfl
@[simp] theorem State.clearAll_dout (s : State) :
    (s.clearAll).dout = [] := rfl
@[simp] theorem State.clearAll_work (s : State) :
    (s.clearAll).work = Working.scrubbed := rfl
@[simp] theorem State.clearAll_pend (s : State) :
    (s.clearAll).pend = s.pend := rfl
@[simp] theorem State.clearAll_silent (s : State) :
    (s.clearAll).silent = s.silent := rfl
@[simp] theorem State.clearAll_answers (s : State) :
    (s.clearAll).answers = [] := rfl
@[simp] theorem State.clearAll_inputs (s : State) :
    (s.clearAll).inputs = s.inputs := rfl
@[simp] theorem State.clearAll_resp (s : State) :
    (s.clearAll).resp = s.resp := rfl

/-! `writeCtrl` (R34). -/

@[simp] theorem State.writeCtrl_params (s : State) (d : Word) :
    (s.writeCtrl d).params = s.params := rfl
@[simp] theorem State.writeCtrl_irqEn (s : State) (d : Word) :
    (s.writeCtrl d).irqEn = d.getLsbD 0 := rfl
@[simp] theorem State.writeCtrl_busy (s : State) (d : Word) :
    (s.writeCtrl d).busy = s.busy := rfl
@[simp] theorem State.writeCtrl_done (s : State) (d : Word) :
    (s.writeCtrl d).done = s.done := rfl
@[simp] theorem State.writeCtrl_err (s : State) (d : Word) :
    (s.writeCtrl d).err = s.err := rfl
@[simp] theorem State.writeCtrl_wrIgn (s : State) (d : Word) :
    (s.writeCtrl d).wrIgn = s.wrIgn := rfl
@[simp] theorem State.writeCtrl_errCode (s : State) (d : Word) :
    (s.writeCtrl d).errCode = s.errCode := rfl
@[simp] theorem State.writeCtrl_failOp (s : State) (d : Word) :
    (s.writeCtrl d).failOp = s.failOp := rfl
@[simp] theorem State.writeCtrl_adapterCode (s : State) (d : Word) :
    (s.writeCtrl d).adapterCode = s.adapterCode := rfl
@[simp] theorem State.writeCtrl_ops (s : State) (d : Word) :
    (s.writeCtrl d).ops = s.ops := rfl
@[simp] theorem State.writeCtrl_result (s : State) (d : Word) :
    (s.writeCtrl d).result = s.result := rfl
@[simp] theorem State.writeCtrl_din (s : State) (d : Word) :
    (s.writeCtrl d).din = s.din := rfl
@[simp] theorem State.writeCtrl_dout (s : State) (d : Word) :
    (s.writeCtrl d).dout = s.dout := rfl
@[simp] theorem State.writeCtrl_work (s : State) (d : Word) :
    (s.writeCtrl d).work = s.work := rfl
@[simp] theorem State.writeCtrl_pend (s : State) (d : Word) :
    (s.writeCtrl d).pend = s.pend := rfl
@[simp] theorem State.writeCtrl_silent (s : State) (d : Word) :
    (s.writeCtrl d).silent = s.silent := rfl
@[simp] theorem State.writeCtrl_answers (s : State) (d : Word) :
    (s.writeCtrl d).answers = s.answers := rfl
@[simp] theorem State.writeCtrl_inputs (s : State) (d : Word) :
    (s.writeCtrl d).inputs = s.inputs := rfl
@[simp] theorem State.writeCtrl_resp (s : State) (d : Word) :
    (s.writeCtrl d).resp = s.resp := rfl

end Sys2Proof.Machine
end

