-- ==== Sys2Proof/Laws/CipherPort.lean ====
section
/-! SUPPORT. Computations that call the cipher: sequencing, resumption and value (40_command_lifecycle.md R141 to R144). -/

namespace Sys2Proof.Machine

variable {α β γ : Type}

@[simp] theorem Prog.ret_bind (a : α) (f : α → Prog β) : (Prog.ret a).bind f = f a := rfl

@[simp] theorem Prog.call_bind (q : Request) (k : Block → Prog α) (f : α → Prog β) :
    (Prog.call q k).bind f = .call q fun r => (k r).bind f := rfl

@[simp] theorem Prog.bind_ret (p : Prog α) : p.bind .ret = p := by
  induction p with
  | ret a => rfl
  | call q k ih => simp [ih]

theorem Prog.bind_assoc (p : Prog α) (f : α → Prog β) (g : β → Prog γ) :
    (p.bind f).bind g = p.bind fun a => (f a).bind g := by
  induction p with
  | ret a => rfl
  | call q k ih => simp [ih]

@[simp] theorem Prog.resume_nil (p : Prog α) : p.resume [] = p := rfl

@[simp] theorem Prog.resume_call (q : Request) (k : Block → Prog α) (r : Block) (rs : List Block) :
    (Prog.call q k).resume (r :: rs) = (k r).resume rs := rfl

@[simp] theorem Prog.resume_ret (a : α) (rs : List Block) : (Prog.ret a).resume rs = .ret a := by
  cases rs <;> rfl

/-- Resuming with more answers is resuming again. -/
theorem Prog.resume_append (p : Prog α) (rs ss : List Block) : p.resume (rs ++ ss) = (p.resume rs).resume ss := by
  induction rs generalizing p with
  | nil => rfl
  | cons r rs ih =>
    cases p with
    | ret a => simp
    | call q k => simpa using ih (k r)

@[simp] theorem Prog.eval_ret (ad : Request → Response) (a : α) : (Prog.ret a).eval ad = .ok a := rfl

theorem Prog.eval_call (ad : Request → Response) (q : Request) (k : Block → Prog α) :
    (Prog.call q k).eval ad = match ad q with | .ok r => (k r).eval ad | .fail x => .error x := by
  cases h : ad q <;> simp only [Prog.eval, h]

/-- The value of a sequence: the first failure, or the value of the second part. -/
theorem Prog.eval_bind (ad : Request → Response) (p : Prog α) (f : α → Prog β) :
    (p.bind f).eval ad = match p.eval ad with | .ok a => (f a).eval ad | .error x => .error x := by
  induction p with
  | ret a => rfl
  | call q k ih =>
    simp only [Prog.call_bind, Prog.eval_call]
    split
    · exact ih _
    · rfl

@[simp] theorem Prog.requests_ret (ad : Request → Response) (a : α) : (Prog.ret a).requests ad = [] := rfl

/-- The requests of a sequence: those of the first part, and, unless it failed, those of the second. -/
theorem Prog.requests_bind (ad : Request → Response) (p : Prog α) (f : α → Prog β) :
    (p.bind f).requests ad =
      p.requests ad ++ match p.eval ad with | .ok a => (f a).requests ad | .error _ => [] := by
  induction p with
  | ret a => rfl
  | call q k ih =>
    simp only [Prog.call_bind, Prog.requests, Prog.eval_call]
    cases h : ad q with
    | ok r => simpa using ih r
    | fail x => rfl

/-- The adapter's step, by its answer (R141). -/
theorem State.adapterStep_ok {s : State} {q : Request} {r : Block} (h : s.adapter q = .ok r) :
    s.adapterStep q = { s with pend := none, answers := s.answers ++ [r] } := by
  simp [State.adapterStep, h]

theorem State.adapterStep_fail {s : State} {q : Request} {x : FailCode} (h : s.adapter q = .fail x) :
    s.adapterStep q = { s with pend := none }.raise .adapterFailure s.work.opc x := by
  simp [State.adapterStep, h]

/-- All that the adapter's step can do. -/
theorem State.adapterStep_cases (s : State) (q : Request) :
    (∃ r, s.adapter q = .ok r ∧ s.adapterStep q = { s with pend := none, answers := s.answers ++ [r] }) ∨
    (∃ x, s.adapter q = .fail x ∧
      s.adapterStep q = { s with pend := none }.raise .adapterFailure s.work.opc x) := by
  cases h : s.adapter q with
  | ok r => exact .inl ⟨r, rfl, State.adapterStep_ok h⟩
  | fail x => exact .inr ⟨x, rfl, State.adapterStep_fail h⟩

/-- Leaving a request unanswered changes nothing but that it is (R147). -/
theorem State.leaveUnanswered_pending {s : State} {q : Request} (h : s.pend = some q) :
    s.leaveUnanswered = { s with silent := true } := by
  simp [State.leaveUnanswered, h]

theorem State.leaveUnanswered_none {s : State} (h : s.pend = none) : s.leaveUnanswered = s := by
  simp [State.leaveUnanswered, h]

end Sys2Proof.Machine
end

