-- ==== Sys2Proof/Laws/Memory.lean ====
section
/-! SUPPORT. The data buffers: a read after a write, the canonical form, and that canonical buffers with the same bytes are equal
(20_memory.md R72). -/

namespace Sys2Proof.Machine

@[simp] theorem Memory.read_nil (a : Nat) : Memory.read [] a = 0 := rfl

theorem Memory.read_cons (c : Host.Cell) (m : Memory) (a : Nat) :
    Memory.read (c :: m) a = if c.1 = a then c.2 else Memory.read m a := rfl

/-- Every offset of a canonical buffer's tail is above its head's. -/
theorem Memory.wf_tail_above {c : Host.Cell} {m : Memory} (h : Memory.wf (c :: m) = true) : ∀ d ∈ m, c.1 < d.1 := by
  induction m generalizing c with
  | nil => intro d hd; cases hd
  | cons e m ih =>
    simp only [Memory.wf, Bool.and_eq_true, decide_eq_true_eq] at h
    intro d hd
    rcases List.mem_cons.mp hd with rfl | hd
    · exact h.1.2
    · exact lt_trans h.1.2 (ih h.2 d hd)

/-- The canonical form of a buffer with a head cell. -/
theorem Memory.wf_cons_iff (c : Host.Cell) (m : Memory) :
    Memory.wf (c :: m) = true ↔ c.2 ≠ 0 ∧ (∀ d ∈ m, c.1 < d.1) ∧ Memory.wf m = true := by
  cases m with
  | nil => simp [Memory.wf]
  | cons d m =>
    constructor
    · intro h
      have habove := Memory.wf_tail_above h
      simp only [Memory.wf, Bool.and_eq_true, decide_eq_true_eq, bne_iff_ne] at h
      exact ⟨h.1.1, habove, h.2⟩
    · intro h
      simp only [Memory.wf, Bool.and_eq_true, decide_eq_true_eq, bne_iff_ne]
      exact ⟨⟨h.1, h.2.1 d (List.mem_cons_self ..)⟩, h.2.2⟩

/-- An offset below every listed one reads 0. -/
theorem Memory.read_below {m : Memory} {a : Nat} (h : ∀ d ∈ m, a < d.1) : m.read a = 0 := by
  induction m with
  | nil => rfl
  | cons c m ih =>
    rw [Memory.read_cons, if_neg (Nat.ne_of_gt (h c (List.mem_cons_self ..)))]
    exact ih fun d hd => h d (List.mem_cons_of_mem _ hd)

/-- The cells of a written buffer: the old ones, and the new one. -/
theorem Memory.mem_put {m : Memory} {a : Nat} {b : BitVec 8} {d : Host.Cell} (h : d ∈ m.put a b) : d ∈ m ∨ d = (a, b) := by
  induction m with
  | nil =>
    simp only [Memory.put] at h
    split at h
    · cases h
    · exact .inr (List.mem_singleton.mp h)
  | cons c m ih =>
    simp only [Memory.put] at h
    split at h
    · split at h
      · exact .inl h
      · rcases List.mem_cons.mp h with h | h
        · exact .inr h
        · exact .inl h
    · split at h
      · split at h
        · exact .inl (List.mem_cons_of_mem _ h)
        · rcases List.mem_cons.mp h with h | h
          · exact .inr h
          · exact .inl (List.mem_cons_of_mem _ h)
      · rcases List.mem_cons.mp h with h | h
        · exact .inl (h ▸ List.mem_cons_self ..)
        · exact (ih h).imp_left (List.mem_cons_of_mem _)

/-- A byte write keeps the canonical form. -/
theorem Memory.wf_put {m : Memory} (h : m.wf = true) (a : Nat) (b : BitVec 8) : (m.put a b).wf = true := by
  induction m with
  | nil =>
    simp only [Memory.put]
    split <;> simp_all [Memory.wf]
  | cons c m ih =>
    obtain ⟨hc, habove, hm⟩ := (Memory.wf_cons_iff c m).mp h
    simp only [Memory.put]
    split
    · rename_i hlt
      split
      · exact h
      · rename_i hb
        refine (Memory.wf_cons_iff _ _).mpr ⟨hb, fun d hd => ?_, h⟩
        rcases List.mem_cons.mp hd with rfl | hd
        · exact hlt
        · exact lt_trans hlt (habove d hd)
    · split
      · rename_i heq
        split
        · exact hm
        · rename_i hb
          exact (Memory.wf_cons_iff _ _).mpr ⟨hb, fun d hd => heq ▸ habove d hd, hm⟩
      · rename_i hlt hne
        refine (Memory.wf_cons_iff _ _).mpr ⟨hc, fun d hd => ?_, ih hm⟩
        rcases Memory.mem_put hd with hd | rfl
        · exact habove d hd
        · exact lt_of_le_of_ne (Nat.le_of_not_lt hlt) (Ne.symm hne)

/-- A byte write in a canonical buffer is read back, and every other byte reads as before. -/
theorem Memory.read_put {m : Memory} (h : m.wf = true) (a : Nat) (b : BitVec 8) (x : Nat) :
    (m.put a b).read x = if x = a then b else m.read x := by
  induction m with
  | nil =>
    simp only [Memory.put]
    split
    · rename_i hb; simp [hb]
    · simp [Memory.read_cons, eq_comm]
  | cons c m ih =>
    obtain ⟨hc, habove, hm⟩ := (Memory.wf_cons_iff c m).mp h
    simp only [Memory.put]
    split
    · rename_i hlt
      split
      · rename_i hb
        split
        · rename_i hx
          subst hx hb
          refine Memory.read_below fun d hd => ?_
          rcases List.mem_cons.mp hd with rfl | hd
          · exact hlt
          · exact lt_trans hlt (habove d hd)
        · rfl
      · rw [Memory.read_cons]
        simp only [eq_comm]
    · split
      · rename_i heq
        split
        · rename_i hb
          rw [Memory.read_cons]
          split
          · rename_i hx
            subst hb
            exact Memory.read_below fun d hd => by rw [hx, heq]; exact habove d hd
          · rename_i hx
            rw [if_neg (by omega)]
        · rw [Memory.read_cons, Memory.read_cons]
          by_cases hx : x = a
          · simp [hx]
          · simp [hx, Ne.symm hx, ← heq]
      · rename_i hlt hne
        rw [Memory.read_cons, Memory.read_cons, ih hm]
        by_cases hx : c.1 = x
        · rw [if_pos hx, if_pos hx, if_neg (by omega)]
        · rw [if_neg hx, if_neg hx]

/-- A word write keeps the canonical form. -/
theorem Memory.wf_write32 {m : Memory} (h : m.wf = true) (off : Nat) (v : Word) : (m.write32 off v).wf = true :=
  Memory.wf_put (Memory.wf_put (Memory.wf_put (Memory.wf_put h _ _) _ _) _ _) _ _

/-- A block write keeps the canonical form. -/
theorem Memory.wf_write64 {m : Memory} (h : m.wf = true) (off : Nat) (v : Block) : (m.write64 off v).wf = true :=
  Memory.wf_write32 (Memory.wf_write32 h _ _) _ _

/-- Writing blocks keeps the canonical form. -/
theorem Memory.wf_writeBlocks {m : Memory} (h : m.wf = true) (i : Nat) (bs : List Block) :
    (m.writeBlocks i bs).wf = true := by
  induction bs generalizing m i with
  | nil => exact h
  | cons b bs ih => exact ih (Memory.wf_write64 h _ _) _

/-- The bytes of a buffer after a word write (R72). -/
theorem Memory.read_write32 {m : Memory} (h : m.wf = true) (off : Nat) (v : Word) (x : Nat) :
    (m.write32 off v).read x =
      if x = off + 3 then v.extractLsb' 0 8 else if x = off + 2 then v.extractLsb' 8 8
      else if x = off + 1 then v.extractLsb' 16 8 else if x = off then v.extractLsb' 24 8 else m.read x := by
  simp only [Memory.write32]
  rw [Memory.read_put (Memory.wf_put (Memory.wf_put (Memory.wf_put h _ _) _ _) _ _),
    Memory.read_put (Memory.wf_put (Memory.wf_put h _ _) _ _), Memory.read_put (Memory.wf_put h _ _), Memory.read_put h]

/-- A byte outside the word reads as before. -/
theorem Memory.read_write32_outside {m : Memory} (h : m.wf = true) (off : Nat) (v : Word) {x : Nat}
    (hx : x < off ∨ off + 4 ≤ x) : (m.write32 off v).read x = m.read x := by
  rw [Memory.read_write32 h, if_neg (by omega), if_neg (by omega), if_neg (by omega), if_neg (by omega)]

/-- A word put together from its bytes, most significant first (R70). -/
theorem Memory.word_of_bytes (v : Word) :
    v.extractLsb' 24 8 ++ v.extractLsb' 16 8 ++ v.extractLsb' 8 8 ++ v.extractLsb' 0 8 = v := by
  ext i hi
  simp only [BitVec.getElem_append, BitVec.getElem_extractLsb']
  split
  · simp [BitVec.getLsbD_eq_getElem, hi]
  · split
    · rw [BitVec.getLsbD_eq_getElem (by omega)]; congr 1; omega
    · split
      · rw [BitVec.getLsbD_eq_getElem (by omega)]; congr 1; omega
      · rw [BitVec.getLsbD_eq_getElem (by omega)]; congr 1; omega

/-- A word is read back as written. -/
theorem Memory.read32_write32 {m : Memory} (h : m.wf = true) (off : Nat) (v : Word) :
    (m.write32 off v).read32 off = v := by
  simp only [Memory.read32, Memory.read_write32 h]
  simpa using Memory.word_of_bytes v

/-- A word apart from the written one reads as before. -/
theorem Memory.read32_write32_apart {m : Memory} (h : m.wf = true) (off : Nat) (v : Word) {x : Nat}
    (hx : x + 4 ≤ off ∨ off + 4 ≤ x) : (m.write32 off v).read32 x = m.read32 x := by
  simp only [Memory.read32]
  rw [Memory.read_write32_outside h off v (by omega), Memory.read_write32_outside h off v (by omega),
    Memory.read_write32_outside h off v (by omega), Memory.read_write32_outside h off v (by omega)]

/-- A block put together from its halves. -/
theorem Memory.block_of_words (v : Block) : v.extractLsb' 32 32 ++ v.extractLsb' 0 32 = v := by
  ext i hi
  simp only [BitVec.getElem_append, BitVec.getElem_extractLsb']
  split
  · simp [BitVec.getLsbD_eq_getElem, hi]
  · rw [BitVec.getLsbD_eq_getElem (by omega)]; congr 1; omega

/-- A block is read back as written. -/
theorem Memory.read64_write64 {m : Memory} (h : m.wf = true) (off : Nat) (v : Block) :
    (m.write64 off v).read64 off = v := by
  simp only [Memory.read64, Memory.write64]
  rw [Memory.read32_write32 (Memory.wf_write32 h _ _),
    Memory.read32_write32_apart (Memory.wf_write32 h _ _) _ _ (by omega), Memory.read32_write32 h]
  exact Memory.block_of_words v

/-- A byte outside the block reads as before. -/
theorem Memory.read_write64_outside {m : Memory} (h : m.wf = true) (off : Nat) (v : Block) {x : Nat}
    (hx : x < off ∨ off + 8 ≤ x) : (m.write64 off v).read x = m.read x := by
  simp only [Memory.write64]
  rw [Memory.read_write32_outside (Memory.wf_write32 h _ _) _ _ (by omega),
    Memory.read_write32_outside h _ _ (by omega)]

/-- A block apart from the written one reads as before. -/
theorem Memory.read64_write64_apart {m : Memory} (h : m.wf = true) (off : Nat) (v : Block) {x : Nat}
    (hx : x + 8 ≤ off ∨ off + 8 ≤ x) : (m.write64 off v).read64 x = m.read64 x := by
  simp only [Memory.read64, Memory.write64]
  rw [Memory.read32_write32_apart (Memory.wf_write32 h _ _) _ _ (by omega), Memory.read32_write32_apart h _ _ (by omega),
    Memory.read32_write32_apart (Memory.wf_write32 h _ _) _ _ (by omega), Memory.read32_write32_apart h _ _ (by omega)]

/-- Canonical buffers with the same bytes are the same buffer. -/
theorem Memory.eq_of_read_eq {m n : Memory} (hm : m.wf = true) (hn : n.wf = true) (h : ∀ a, m.read a = n.read a) :
    m = n := by
  induction m generalizing n with
  | nil =>
    cases n with
    | nil => rfl
    | cons d n =>
      have hd := ((Memory.wf_cons_iff d n).mp hn).1
      exact absurd (by simpa [Memory.read_cons] using (h d.1).symm) hd
  | cons c m ih =>
    obtain ⟨hc, hcm, hm'⟩ := (Memory.wf_cons_iff c m).mp hm
    cases n with
    | nil => exact absurd (by simpa [Memory.read_cons] using h c.1) hc
    | cons d n =>
      obtain ⟨hd, hdn, hn'⟩ := (Memory.wf_cons_iff d n).mp hn
      have hfst : c.1 = d.1 := by
        rcases lt_trichotomy c.1 d.1 with hlt | heq | hgt
        · have := h c.1
          rw [Memory.read_cons, if_pos rfl, Memory.read_below (m := d :: n)] at this
          · exact absurd this hc
          · intro e he
            rcases List.mem_cons.mp he with rfl | he
            · exact hlt
            · exact lt_trans hlt (hdn e he)
        · exact heq
        · have := h d.1
          rw [Memory.read_cons (c := d), if_pos rfl, Memory.read_below (m := c :: m)] at this
          · exact absurd this.symm hd
          · intro e he
            rcases List.mem_cons.mp he with rfl | he
            · exact hgt
            · exact lt_trans hgt (hcm e he)
      have hsnd : c.2 = d.2 := by
        have := h c.1
        rwa [Memory.read_cons, if_pos rfl, Memory.read_cons, if_pos hfst.symm] at this
      have htail : m = n := by
        refine ih hm' hn' fun a => ?_
        by_cases ha : c.1 = a
        · rw [Memory.read_below (m := m) (fun e he => ha ▸ hcm e he),
            Memory.read_below (m := n) (fun e he => by rw [← ha, hfst]; exact hdn e he)]
        · have := h a
          rwa [Memory.read_cons, if_neg ha, Memory.read_cons, if_neg (hfst ▸ ha)] at this
      rw [htail, Prod.ext hfst hsnd]

end Sys2Proof.Machine
end

