-- ==== Sys2Proof/Laws/Des.lean ====
section
/-! SUPPORT. The reference adapter's TDES_D undoes its TDES_E (43_data_cipher.md R217; 93_implementation_defined.md G2, G3): a premise of the
round trip that the reference adapter meets. -/

namespace Sys2Proof.Machine

/-- The bits of a selected number, the last position of the table lowest. -/
theorem testBit_select {n : Nat} (x : BitVec n) (table : List Nat) (acc j : Nat) :
    (table.foldl (fun acc p => 2 * acc + (x.getMsbD (p - 1)).toNat) acc).testBit j =
      if h : j < table.length then x.getMsbD (table[table.length - 1 - j] - 1) else acc.testBit (j - table.length) := by
  induction table generalizing acc with
  | nil => simp
  | cons p table ih =>
    rw [List.foldl_cons, ih]
    have hhead : ∀ k, (2 * acc + (x.getMsbD (p - 1)).toNat).testBit k =
        if k = 0 then x.getMsbD (p - 1) else acc.testBit (k - 1) := by
      intro k
      cases k with
      | zero => cases x.getMsbD (p - 1) <;> simp [Nat.testBit_zero, Nat.add_mod]
      | succ k =>
        have hhalf : (2 * acc + (x.getMsbD (p - 1)).toNat) / 2 = acc := by
          cases x.getMsbD (p - 1) <;> (simp; try omega)
        simp [Nat.testBit_succ, hhalf]
    by_cases hj : j < table.length
    · have hj' : j < (p :: table).length := by simp; omega
      have hpos : (p :: table).length - 1 - j = (table.length - 1 - j) + 1 := by simp; omega
      simp only [hj, hj', hpos, dif_pos, List.getElem_cons_succ]
    · rw [dif_neg hj, hhead]
      by_cases h0 : j = table.length
      · subst h0
        simp
      · have hj' : ¬ j < (p :: table).length := by simp; omega
        have hne : j - table.length ≠ 0 := by omega
        rw [dif_neg hj', if_neg hne]
        congr 1

/-- Bit `i` of a selection, counted from the most significant, is the bit its table names. -/
theorem getMsbD_desSelect {n m : Nat} (x : BitVec n) {table : List Nat} (hlen : table.length = m) {i : Nat} (hi : i < m) :
    (desSelect m table x).getMsbD i = x.getMsbD (table[i]'(by omega) - 1) := by
  subst hlen
  have hpos : table.length - 1 - i < table.length := by omega
  have hidx : table.length - 1 - (table.length - 1 - i) = i := by omega
  rw [BitVec.getMsbD, desSelect, BitVec.getLsbD_ofNat, testBit_select]
  simp [hi, hpos, hidx]

/-- Two tables that undo each other give selections that undo each other. -/
theorem desSelect_desSelect {n : Nat} (x : BitVec n) {s t : List Nat} (hs : s.length = n) (ht : t.length = n)
    (h : ∀ i, (hi : i < n) → ∃ hj : s[i]'(by omega) - 1 < n, t[s[i]'(by omega) - 1]'(by omega) - 1 = i) :
    desSelect n s (desSelect n t x) = x := by
  apply BitVec.eq_of_getMsbD_eq
  intro i hi
  obtain ⟨hj, hij⟩ := h i hi
  rw [getMsbD_desSelect _ hs hi, getMsbD_desSelect _ ht hj, hij]

/-- IP undoes FP, and FP undoes IP. -/
theorem desIP_desFP (b : Block) : desSelect 64 desIP (desSelect 64 desFP b) = b :=
  desSelect_desSelect b (by decide) (by decide) (by decide)

theorem desFP_desIP (b : Block) : desSelect 64 desFP (desSelect 64 desIP b) = b :=
  desSelect_desSelect b (by decide) (by decide) (by decide)

/-- The rounds under the reversed keys, from the exchanged halves, lead back to the exchanged halves. -/
theorem foldl_desRound_reverse (keys : List (BitVec 48)) (lr : BitVec 32 × BitVec 32) :
    keys.reverse.foldl desRound (keys.foldl desRound lr).swap = lr.swap := by
  induction keys generalizing lr with
  | nil => rfl
  | cons k keys ih =>
    rw [List.reverse_cons, List.foldl_append, List.foldl_cons (l := keys), ih]
    simp [desRound, Prod.swap]

/-- The rounds under reversed keys undo the rounds. -/
theorem desCrypt_reverse (keys : List (BitVec 48)) (b : Block) : desCrypt keys.reverse (desCrypt keys b) = b := by
  have hi : ∀ x y : BitVec 32, (x ++ y).extractLsb' 32 32 = x := by
    intro x y; ext n hn; rw [BitVec.getElem_extractLsb', BitVec.getLsbD_append]; simp [BitVec.getLsbD_eq_getElem hn]
  have lo : ∀ x y : BitVec 32, (x ++ y).extractLsb' 0 32 = y := by
    intro x y; ext n hn; rw [BitVec.getElem_extractLsb', BitVec.getLsbD_append]; simp [hn]
  unfold desCrypt
  simp only [desIP_desFP, hi, lo]
  have := foldl_desRound_reverse keys
    ((desSelect 64 desIP b).extractLsb' 32 32, (desSelect 64 desIP b).extractLsb' 0 32)
  simp only [Prod.swap] at this
  rw [this]
  rw [Memory.block_of_words, desFP_desIP]

theorem desDecrypt_desEncrypt (key b : Block) : desDecrypt key (desEncrypt key b) = b := desCrypt_reverse _ b

theorem desEncrypt_desDecrypt (key b : Block) : desEncrypt key (desDecrypt key b) = b := by
  have h := desCrypt_reverse (desKeys key).reverse b
  rwa [List.reverse_reverse] at h

/-- TDES_D undoes TDES_E (G3). -/
theorem tdesDecrypt_tdesEncrypt (key : Key) (b : Block) : tdesDecrypt key (tdesEncrypt key b) = b := by
  simp only [tdesDecrypt, tdesEncrypt, desDecrypt_desEncrypt, desEncrypt_desDecrypt]

end Sys2Proof.Machine
end

