-- ==== Sys2Proof/Laws/Operands.lean ====
section
/-! SUPPORT. The operand registers word by word (10_state.md R39 to R41, R43), and all that issuing a command can do
(40_command_lifecycle.md R131). -/

namespace Sys2Proof.Machine

/-- A written K_IN word is that word, and the others are as before (R39). -/
theorem keyWord_setKeyWord (k : Key) (i j : Fin 4) (d : Word) :
    keyWord (setKeyWord k i d) j = if j = i then d else keyWord k j := by
  fin_cases i <;> fin_cases j <;> simp [keyWord, setKeyWord] <;> ext n hn <;>
    simp [BitVec.getElem_extractLsb'] <;> grind

/-- A written REG word is that word, and the other is as before (R41). -/
theorem regWord_setRegWord (r : Block) (i j : Fin 2) (d : Word) :
    regWord (setRegWord r i d) j = if j = i then d else regWord r j := by
  fin_cases i <;> fin_cases j <;> simp [regWord, setRegWord] <;> ext n hn <;>
    simp [BitVec.getElem_extractLsb'] <;> grind

/-- A written KSN word reads back as that word, KSN0 only in its low half, and the others are as before (R40). -/
theorem ksnWord_setKsnWord (k : Ksn) (i j : Fin 3) (d : Word) :
    ksnWord (setKsnWord k i d) j =
      if j = i then (if i = 0 then (d.extractLsb' 0 16).setWidth 32 else d) else ksnWord k j := by
  fin_cases i <;> fin_cases j <;> simp [ksnWord, setKsnWord] <;> ext n hn <;>
    simp [BitVec.getElem_extractLsb'] <;> grind

/-- All that issuing a legal command can do: nothing but WR_IGN while busy, an error completion, or the start. -/
theorem issueCommand_cases (i : Instr) (n : Needs) (go : State → State) (s : State) :
    (s.busy = true ∧ issueCommand i n go s = .next s.ignoreWrite) ∨
    (∃ e, s.busy = false ∧ s.clearOnIssue.issueError n = some e ∧
      issueCommand i n go s = .next (s.clearOnIssue.raise e i.opcode 0)) ∨
    (s.busy = false ∧ s.clearOnIssue.issueError n = none ∧
      issueCommand i n go s = .next (go s.clearOnIssue)) := by
  cases hb : s.busy with
  | true => exact .inl ⟨rfl, by simp [issueCommand, hb]⟩
  | false =>
    cases he : s.clearOnIssue.issueError n with
    | none => exact .inr (.inr ⟨rfl, rfl, by simp [issueCommand, hb, he]⟩)
    | some e => exact .inr (.inl ⟨e, rfl, rfl, by simp [issueCommand, hb, he]⟩)

/-- The checks of issue read only what R132 does not clear. -/
@[simp] theorem State.issueError_clearOnIssue (s : State) (n : Needs) : s.clearOnIssue.issueError n = s.issueError n := rfl

theorem issueCommand_busy {s : State} (h : s.busy = true) (i : Instr) (n : Needs) (go : State → State) :
    issueCommand i n go s = .next s.ignoreWrite := by
  simp [issueCommand, h]

theorem issueCommand_error {s : State} {n : Needs} {e : ErrCode} (h : s.busy = false) (he : s.issueError n = some e)
    (i : Instr) (go : State → State) : issueCommand i n go s = .next (s.clearOnIssue.raise e i.opcode 0) := by
  simp [issueCommand, h, he]

theorem issueCommand_go {s : State} {n : Needs} (h : s.busy = false) (he : s.issueError n = none)
    (i : Instr) (go : State → State) : issueCommand i n go s = .next (go s.clearOnIssue) := by
  simp [issueCommand, h, he]

theorem issueIllegal_busy {s : State} (h : s.busy = true) (w : Word) : issueIllegal w s = .next s.ignoreWrite := by
  simp [issueIllegal, h]

theorem issueIllegal_idle {s : State} (h : s.busy = false) (w : Word) :
    issueIllegal w s = .next (s.clearOnIssue.raise .illegalCommand (w.extractLsb' 0 8) 0) := by
  simp [issueIllegal, h]

end Sys2Proof.Machine
end

