-- ==== Sys2Proof/Laws/PerInstr.lean ====
section
/-! SUPPORT. Facts of every command as syntax, one lemma per constructor. Family `Legal`: the command's fields pass the checks of R106, and
its word carries its operation code and variant in the bits of R101. -/

namespace Sys2Proof.Laws.Legal

/-- The fields are legal, and `w[7:0]` and `w[8]` are the operation code and the variant (30_encoding.md R101, R103). -/
def Statement (i : Instr) : Prop :=
  i.fields.wf = true ∧ (encode i).extractLsb' 0 8 = i.opcode ∧ variantOf ((encode i).getLsbD 8) = i.variant

theorem createIpek : Statement .createIpek := by unfold Statement; decide

theorem deriveKey : Statement .deriveKey := by unfold Statement; decide

theorem generateKey : Statement .generateKey := by unfold Statement; decide

theorem encryptRegister : Statement .encryptRegister := by unfold Statement; decide

theorem sessionPek : Statement .sessionPek := by unfold Statement; decide

theorem sessionDek : Statement .sessionDek := by unfold Statement; decide

theorem sessionKey (v : Variant) : Statement (.sessionKey v) := by unfold Statement; cases v <;> decide

theorem encrypt (v : Variant) : Statement (.encrypt v) := by unfold Statement; cases v <;> decide

theorem decrypt (v : Variant) : Statement (.decrypt v) := by unfold Statement; cases v <;> decide

theorem clear : Statement .clear := by unfold Statement; decide

end Sys2Proof.Laws.Legal
end

