-- ==== Sys2Proof/Laws/Step.lean ====
section
/-! SUPPORT. What one step can do (40_command_lifecycle.md R130, R135, R141): the schedule, the agents, the engine and the bus. -/

namespace Sys2Proof.Machine

/-- The runs of statements are the host's runs of the core. -/
theorem runSteps_eq_run (n : Nat) (s : State) : runSteps n s = Sys2Proof.core.run n s := by
  induction n generalizing s with
  | zero => rfl
  | succ n ih =>
    simp only [runSteps, Host.Core.run]
    cases h : step s with
    | next t => simpa [Sys2Proof.core, h] using ih t
    | fault f => simp [Sys2Proof.core, h]
    | refused r => simp [Sys2Proof.core, h]

theorem step_no_input {s : State} (h : s.inputs = []) : step s = freeRun s := by
  simp [step, h]

theorem step_input {s : State} {x : Input} {rest : List Input} (h : s.inputs = x :: rest) :
    step s = deliver x { s with inputs := rest } := by
  simp [step, h]

theorem agentStep_pending {s : State} {q : Request} (h : s.pend = some q) (ha : s.silent = false)
    (stuck : StepOutcome) : agentStep stuck s = .next (s.adapterStep q) := by
  simp [agentStep, h, ha]

theorem agentStep_silent {s : State} {q : Request} (h : s.pend = some q) (ha : s.silent = true)
    (stuck : StepOutcome) : agentStep stuck s = stuck := by
  simp [agentStep, h, ha]

theorem agentStep_busy {s : State} (h : s.pend = none) (hb : s.busy = true) (stuck : StepOutcome) :
    agentStep stuck s = engineStep s := by
  simp [agentStep, h, hb]

theorem agentStep_idle {s : State} (h : s.pend = none) (hb : s.busy = false) (stuck : StepOutcome) :
    agentStep stuck s = .next s := by
  simp [agentStep, h, hb]

/-- All that a step of the engine can do: send the phase action's next request, or end the action. -/
theorem engineStep_cases (s : State) :
    (∃ q k, (phaseAction { s with answers := [] }).resume s.answers = .call q k ∧ engineStep s = .next (s.send q)) ∨
    (∃ o, (phaseAction { s with answers := [] }).resume s.answers = .ret o ∧ engineStep s = o) := by
  cases h : (phaseAction { s with answers := [] }).resume s.answers with
  | ret o => exact .inr ⟨o, rfl, by simp [engineStep, h]⟩
  | call q k => exact .inl ⟨q, k, rfl, by simp [engineStep, h]⟩

/-- Every meaning is an issue: the command's own start over the shared operation (R131). -/
theorem exec_eq_issue (i : Instr) (s : State) : exec i s = issueCommand i (commandNeeds i) (commandStart i) s := by
  cases i <;> rfl

/-- All that a CMD write of a legal word can do. -/
theorem exec_cases (i : Instr) (s : State) :
    (s.busy = true ∧ exec i s = .next s.ignoreWrite) ∨
    (∃ e, s.busy = false ∧ s.issueError (commandNeeds i) = some e ∧
      exec i s = .next (s.clearOnIssue.raise e i.opcode 0)) ∨
    (s.busy = false ∧ s.issueError (commandNeeds i) = none ∧ exec i s = .next (commandStart i s.clearOnIssue)) := by
  rw [exec_eq_issue]
  exact issueCommand_cases i (commandNeeds i) (commandStart i) s

/-- A CMD write reaches the register CMD of the window: an aligned 32-bit write at offset 0x010. -/
theorem commandWrite_cmd (p : Params) (w : Word) :
    commandWrite p (.write (p.base + 0x010) .w32 w) = some w := by
  have hoff : windowOffset p (p.base + 0x010) = some 0x010 := by
    simp [windowOffset]
  have htarget : accessTarget p 0x010 .w32 = some .cmd := by
    simp [accessTarget, targetAt, registerMap, List.lookup]
  simp only [commandWrite, hoff, htarget, if_true]

/-- Any other access is the bus's. -/
theorem hostAccess_bus {s : State} {a : Access} (h : commandWrite s.params a = none) :
    hostAccess a s = .next (s.busAccess a) := by
  simp [hostAccess, h]

theorem hostAccess_command {s : State} {a : Access} {w : Word} (h : commandWrite s.params a = some w) :
    hostAccess a s = issueWord w (s.respond (some .accepted)) := by
  simp [hostAccess, h]

/-- A bus access that is no CMD write leaves the engine's own registers and the schedule as they are; only IRQ_EN, the W1C flags, the
operands, DIN and the host's answer can change (20_memory.md R79). -/
theorem State.busAccess_frame (s : State) (a : Access) :
    (s.busAccess a).params = s.params ∧ (s.busAccess a).busy = s.busy ∧ (s.busAccess a).result = s.result ∧
      (s.busAccess a).dout = s.dout ∧ (s.busAccess a).work = s.work ∧ (s.busAccess a).pend = s.pend ∧ (s.busAccess a).silent = s.silent ∧
      (s.busAccess a).answers = s.answers ∧ (s.busAccess a).inputs = s.inputs := by
  simp only [State.busAccess]
  split
  · simp
  · split
    · simp
    · split
      · simp
      · rename_i t _ _ d
        cases t <;> simp only [State.writeTarget, State.writeStatus, State.unlessBusy, State.respond_params, State.respond_busy,
          State.respond_result, State.respond_dout, State.respond_work, State.respond_pend, State.respond_silent, State.respond_answers,
          State.respond_inputs] <;> (repeat' split) <;> simp

end Sys2Proof.Machine
end

