-- ==== Sys2Proof/Tests/Slice0.lean ====
section
/-! SUPPORT. Tests, and the witnesses of the statements' hypotheses. Expected values come from spec/95_test_vectors.md (named V0 to V20) or
from the rule each docstring names, never from the model. -/

namespace Sys2Proof.Machine

/-! Helpers. -/

/-- The state a step answers, if it answers one. -/
def tNext (o : StepOutcome) : Option State :=
  match o with
  | .next s => some s
  | .fault _ => none
  | .refused _ => none

def tBdk : Key := 0xA1A1A1A1A1A1A1A1B2B2B2B2B2B2B2B2#128
def tKsn : Ksn := 0xFFFF9876543210E00002#80
def tIpek : Key := 0xA96C9F83F9F06DEE02AD998E80E93A04#128
def tText : Block := 0x041226CBA987EDCB#64

/-- An idle engine with every operand valid: key, KSN, REG and LEN as given, DIN holding the message's blocks. -/
def tIdle (k : Key) (n : Ksn) (g : Block) (len : BitVec 16) (blocks : List Block) : State :=
  { State.reset with
    ops := { kIn := k, ksn := n, reg := g, len := len, kinWm := 0b1111#4, ksnWm := 0b111#3, regWm := 0b11#2 }
    din := Memory.writeBlocks [] 0 blocks }

/-- The source's operands, with one block of text. -/
def tReady : State := tIdle tBdk tKsn 0 8 [tText]

/-- `s` with a command in progress, in the phase, with the answers had so far. -/
def tIn (s : State) (opc : BitVec 8) (v : Variant) (ph : Phase) (answers : List Block) : State :=
  { s with busy := true, work := { s.work with opc := opc, var := v, ph := ph }, answers := answers }

/-- `s` with the registers of the walk. -/
def tWalk (s : State) (kreg : Block) (cur : Key) (sr : Cursor) : State :=
  { s with work := { s.work with kreg := kreg, cur := cur, sr := sr } }

/-! WellFormed: an ill-formed term for each check, which the check refuses (30_encoding.md R103 to R106). -/

theorem test_check_reserved_bits : Fields.check { rsv := 1, v := .pin, op := 0x01 } = .error .reservedBits := by rfl
theorem test_check_reserved_op : Fields.check { rsv := 0, v := .pin, op := 0x0A } = .error .reservedOp := by rfl
theorem test_check_variant : Fields.check { rsv := 0, v := .data, op := 0x0F } = .error .variantNotTaken := by rfl
theorem test_check_legal : Fields.wf { rsv := 0, v := .data, op := 0x09 } = true := by decide

/-! Decode: words written out field by field from R101 and R102, RSV then V then OP. -/

theorem test_decode_createIpek : decode (0b00000000000000000000000#23 ++ 0b0#1 ++ 0b00000001#8) = .ok .createIpek := by rfl
theorem test_decode_deriveKey : decode (0b00000000000000000000000#23 ++ 0b0#1 ++ 0b00000010#8) = .ok .deriveKey := by rfl
theorem test_decode_generateKey : decode (0b00000000000000000000000#23 ++ 0b0#1 ++ 0b00000011#8) = .ok .generateKey := by rfl
theorem test_decode_encryptRegister :
    decode (0b00000000000000000000000#23 ++ 0b0#1 ++ 0b00000100#8) = .ok .encryptRegister := by rfl
theorem test_decode_sessionPek : decode (0b00000000000000000000000#23 ++ 0b0#1 ++ 0b00000101#8) = .ok .sessionPek := by rfl
theorem test_decode_sessionDek : decode (0b00000000000000000000000#23 ++ 0b0#1 ++ 0b00000110#8) = .ok .sessionDek := by rfl
theorem test_decode_sessionKey_data :
    decode (0b00000000000000000000000#23 ++ 0b1#1 ++ 0b00000111#8) = .ok (.sessionKey .data) := by rfl
theorem test_decode_encrypt_pin :
    decode (0b00000000000000000000000#23 ++ 0b0#1 ++ 0b00001000#8) = .ok (.encrypt .pin) := by rfl
theorem test_decode_decrypt_data :
    decode (0b00000000000000000000000#23 ++ 0b1#1 ++ 0b00001001#8) = .ok (.decrypt .data) := by rfl
theorem test_decode_clear : decode (0b00000000000000000000000#23 ++ 0b0#1 ++ 0b00001111#8) = .ok .clear := by rfl

/-- V19: words that are illegal. -/
theorem test_decode_illegal :
    [0x00000000#32, 0x0000000A#32, 0x0000000E#32, 0x00000010#32, 0x000000FF#32, 0x00000101#32, 0x00000106#32, 0x0000010F#32,
      0x00000200#32, 0x00000207#32, 0x80000001#32, 0xFFFFFFFF#32].all (fun w => (decode w).toOption.isNone) = true := by decide

/-- The host's table words: CREATE_IPEK, and a number wider than one word. -/
theorem test_table_words : decodeTableWord 32 0x00000001 = some .createIpek ∧ decodeTableWord 32 0x100000001 = none := by decide

/-! The reference cipher. -/

/-- V0: the DES check vector, both ways. -/
theorem test_des_encrypt : desEncrypt 0x133457799BBCDFF1#64 0x0123456789ABCDEF#64 = 0x85E813540F0AB405#64 := by decide +kernel
theorem test_des_decrypt : desDecrypt 0x133457799BBCDFF1#64 0x85E813540F0AB405#64 = 0x0123456789ABCDEF#64 := by decide +kernel

/-- V1: the left half of the source's IPEK. -/
theorem test_tdes_encrypt : tdesEncrypt tBdk 0xFFFF9876543210E0#64 = 0xA96C9F83F9F06DEE#64 := by decide +kernel

/-- V3: the source's PIN ciphertext under the PIN key of V2, back to the text. -/
theorem test_tdes_decrypt :
    tdesDecrypt 0x19D90377D0DAF32C0EE6DF3AF2ECC25A#128 0x51B0229A9278CECC#64 = tText := by decide +kernel

/-! Commands: one step each. -/

/-- V1: the two requests of CREATE_IPEK. -/
theorem test_createIpek_request :
    (tNext (step (tIn tReady 0x01 .pin .ipekR []))).map (·.pend) =
      some (some (.tdesE 0x61616161A1A1A1A172727272B2B2B2B2#128 0xFFFF9876543210E0#64)) := by decide

/-- V1, P1: the last step of CREATE_IPEK, with the vector's halves. -/
theorem test_createIpek_end :
    (tNext (step { tIn tReady 0x01 .pin .ipekR [0x02AD998E80E93A04#64] with
      work := { (tIn tReady 0x01 .pin .ipekR []).work with tl := 0xA96C9F83F9F06DEE#64 } })).map
        (fun t => (t.result, t.statusWord)) = some (tIpek, 0x00000702#32) := by decide

/-- V6: row 3 of the requests, sent in iteration 20 with the KSN's counter 3. -/
theorem test_deriveKey_request :
    (tNext (step (tWalk (tIn (tIdle tIpek 0xFFFF9876543210E00003#80 0 0 []) 0x02 .pin .walk [])
      0x9876543210E00002#64 0x19D90377D0DAF3D30EE6DF3AF2ECC2A5#128 0x000001#21))).map (·.pend) =
      some (some (.desE 0xD919C3B7D0DAF3D3#64 0x56504BC8E20CC2A6#64)) := by decide

/-- V7: with counter 0 the walk's last step completes with K_IN. -/
theorem test_deriveKey_counter_zero :
    (tNext (step (tWalk (tIn (tIdle tIpek 0xFFFF9876543210E00000#80 0 0 []) 0x02 .pin .walk [])
      0x9876543210E00000#64 tIpek 0x000001#21))).map (fun t => (t.result, t.done, t.work)) =
      some (tIpek, true, Working.scrubbed) := by decide

/-- V8, V6 row 2: the right-half request of GENERATE_KEY. -/
theorem test_generateKey_request :
    (tNext (step (tIn (tIdle tIpek 0 0x9876543210E00002#64 0 []) 0x03 .pin .gen [0#64]))).map (·.pend) =
      some (some (.desE 0xA96C9F83F9F06DEE#64 0x9ADBCDBC90093A06#64)) := by decide

/-- V9, V10: zero operands, with the DES values of the vectors: the left half is `lo64(KeyMask) XOR` its answer. -/
theorem test_generateKey_end :
    (tNext (step (tIn (tIdle 0 0 0 0 []) 0x03 .pin .gen [0x873A15BA38CC09E9#64, 0x8CA64DE9C1B123A7#64]))).map (·.result) =
      some 0x47FAD57A38CC09E98CA64DE9C1B123A7#128 := by decide

/-- V10: RESULT[127:64] is 0. -/
theorem test_encryptRegister_end :
    (tNext (step (tIn (tIdle 0 0 0 0 []) 0x04 .pin .ereg [0x8CA64DE9C1B123A7#64]))).map (·.result) =
      some 0x00000000000000008CA64DE9C1B123A7#128 := by decide

/-- V20: SESSION_PEK with counter 0 sends nothing and gives K_IN XOR PekMask. -/
theorem test_sessionPek_end :
    (tNext (step (tWalk (tIn (tIdle tBdk 0xFFFF9876543210E00000#80 0 0 []) 0x05 .pin .walk [])
      0x9876543210E00000#64 tBdk 0x000001#21))).map (·.result) =
      some 0xA1A1A1A1A1A1A15EB2B2B2B2B2B2B24D#128 := by decide

/-- V2: the DEK's right half is asked for with the intermediate as key. -/
theorem test_sessionDek_request :
    (tNext (step (tWalk (tIn (tIdle tIpek tKsn 0 0 []) 0x06 .pin .dekR [])
      0 0x19D90377D025F3D30EE6DF3AF213C2A5#128 0))).map (·.pend) =
      some (some (.tdesE 0x19D90377D025F3D30EE6DF3AF213C2A5#128 0x0EE6DF3AF213C2A5#64)) := by decide

/-- V12: with counter 0 the walk's last step masks with DekMask and goes on to DEK_L. -/
theorem test_sessionDek_variant :
    (tNext (step (tWalk (tIn (tIdle 0 0 0 0 []) 0x06 .pin .walk []) 0 0 0x000001#21))).map (fun t => (t.work.cur, t.work.ph)) =
      some (0x0000000000FF00000000000000FF0000#128, .dekL) := by decide

/-- V13: SESSION_KEY goes from the IPEK to the walk, which starts with KREG of V6. -/
theorem test_sessionKey_walk :
    (tNext (step { tIn tReady 0x07 .data .ipekR [0x02AD998E80E93A04#64] with
      work := { (tIn tReady 0x07 .data .ipekR []).work with tl := 0xA96C9F83F9F06DEE#64 } })).map
        (fun t => (t.work.cur, t.work.kreg, t.work.sr, t.result)) =
      some (tIpek, 0x9876543210E00000#64, 0x100000#21, 0) := by decide

/-- V15: the second block of ENCRYPT is chained: the request carries text XOR the first ciphertext. -/
theorem test_encrypt_chain :
    (tNext (step { tIn (tIdle tBdk tKsn 0 16 [tText, tText]) 0x08 .pin .data [] with
      work := { (tIn tReady 0x08 .pin .data []).work with
        sk := 0x19D90377D0DAF32C0EE6DF3AF2ECC25A#128, bi := 1, cv := 0x51B0229A9278CECC#64 } })).map (·.pend) =
      some (some (.tdesE 0x19D90377D0DAF32C0EE6DF3AF2ECC25A#128 0x55A204513BFF2307#64)) := by decide

/-- V3, P2: the last DATA step of ENCRYPT: DOUT in byte order, RESULT 0. -/
theorem test_encrypt_end :
    (tNext (step (tIn tReady 0x08 .pin .data [0x51B0229A9278CECC#64]))).map (fun t => (t.dout, t.result, t.statusWord)) =
      some ([(0, 0x51), (1, 0xB0), (2, 0x22), (3, 0x9A), (4, 0x92), (5, 0x78), (6, 0xCE), (7, 0xCC)], 0, 0x00000702#32) := by
  decide

/-- R214: the second block of DECRYPT is XORed with the first ciphertext, which CV holds. -/
theorem test_decrypt_chain :
    (tNext (step { tIn (tIdle tBdk tKsn 0 16 [0x51B0229A9278CECC#64, 0xD32565E895398290#64]) 0x09 .pin .data
      [0x55A204513BFF2307#64] with
      work := { (tIn tReady 0x09 .pin .data []).work with bi := 1, cv := 0x51B0229A9278CECC#64 } })).map
        (fun t => t.dout.read64 8) = some tText := by decide

/-- V18: CLEAR. -/
theorem test_clear :
    (tNext (exec .clear { tReady with irqEn := true, result := 5 })).map
      (fun t => (t.statusWord, t.irq, t.ctrlWord, t.result, t.din.isEmpty)) = some (0x00000002#32, true, 0x00000001#32, 0, true) := by
  decide

/-- V18: CLEAR with V = 1 is illegal and clears no operand. -/
theorem test_clear_illegal :
    (tNext (tReady.after (hostWr tReady.params 0x010 0x0000010F#32))).map
      (fun t => (t.statusWord, t.errinfoWord, t.ops)) = some (0x00000744#32, 0x00000F00#32, tReady.ops) := by decide

/-! Errors, register access, schedule. -/

/-- V16: a partial K_IN is not valid. -/
theorem test_invalid_argument :
    (tNext (exec .createIpek { tReady with ops := { tReady.ops with kinWm := 0b0111#4, regWm := 0 } })).map
      (fun t => (t.statusWord, t.errinfoWord)) = some (0x00000214#32, 0x00000100#32) := by decide

/-- P3: LEN = 12. -/
theorem test_cipher_precondition :
    (tNext (exec (.encrypt .data) (tIdle tBdk tKsn 0 12 []))).map (fun t => (t.statusWord, t.errinfoWord)) =
      some (0x00000724#32, 0x00000800#32) := by decide

/-- V16: LEN = 264, over DBUF_BYTES. -/
theorem test_length_range :
    (tNext (exec (.encrypt .data) { tIdle tBdk tKsn 0 264 [] with ops := { (tIdle tBdk tKsn 0 264 []).ops with regWm := 0 } })).map
      (fun t => (t.statusWord, t.errinfoWord)) = some (0x00000354#32, 0x00000800#32) := by decide

/-- V20: Fail(0x5A) on the IPEK's right half. -/
theorem test_adapter_failure :
    (tNext (step { tIn tReady 0x08 .data .ipekR [] with
      pend := some (.tdesE 0x61616161A1A1A1A172727272B2B2B2B2#128 0xFFFF9876543210E0#64)
      params := { Params.reference with adapter := { Params.reference.adapter with
        table := [(.tdesE 0x61616161A1A1A1A172727272B2B2B2B2#128 0xFFFF9876543210E0#64, .fail 0x5A)] } } })).map
        (fun t => (t.statusWord, t.errinfoWord, t.result, t.dout)) = some (0x00000734#32, 0x0000085A#32, 0, []) := by
  decide

/-- V17, step 2: a LEN write while busy. -/
theorem test_write_while_busy :
    (tNext ((tIn tReady 0x05 .pin .walk []).after (hostWr Params.reference 0x014 0x00000010#32))).map
      (fun t => (t.statusWord, t.ops.len)) = some (0x00000709#32, 8) := by decide

/-- V17, step 9: unmapped, misaligned, past DBUF_BYTES. -/
theorem test_bus_errors :
    [0x01C, 0x802, 0x900].all (fun off =>
      (tNext (tReady.after (hostRd Params.reference off))).map (·.resp) == some (some .busError)) = true := by decide

/-- V17, step 11: KSN0 holds 16 bits. -/
theorem test_ksn0_reserved_bits :
    (tNext (tReady.after (hostWr Params.reference 0x030 0xABCD1234#32))).map (fun t => ksnWord t.ops.ksn 0) =
      some 0x00001234#32 := by decide

/-- R48, V17, step 6. -/
theorem test_irq :
    State.irq { tReady with irqEn := true, done := true } = true ∧
    (tNext (State.after { tReady with irqEn := true, done := true } (hostWr Params.reference 0x00C 0x00000002#32))).map
      State.irq = some false := by decide

/-- R35, R252: an idle STATUS write of bits 2 and 3 clears ERR, ERRCODE, ERRINFO and WR_IGN, and leaves DONE; P3's acknowledgement gives 0x300. -/
theorem test_status_write :
    (tNext (State.after { tReady with err := true, wrIgn := true, errCode := .cipherPrecondition, failOp := 8, ops := { tReady.ops with regWm := 0 } }
      (hostWr Params.reference 0x00C 0x0000000C#32))).map (fun t => (t.statusWord, t.errinfoWord)) =
      some (0x00000300#32, 0#32) := by decide

/-- R147: the second request of GENERATE_KEY goes unanswered; the ticks that follow change nothing. -/
theorem test_later_request_unanswered :
    let s : State := { tIn (tIdle 0 0 0 0 []) 0x03 .pin .gen [5] with pend := some (.desE 0 0) }
    (tNext (s.after .noAnswer)).map (fun t => tNext (t.after .tick)) = some (some { s with silent := true }) := by decide

/-- R271: reset during a walk with a request pending. -/
theorem test_reset_abandons :
    (tNext (State.after { tIn tReady 0x02 .pin .walk [] with pend := some (.desE 1 2) } .reset)).map
      (fun t => (t.busy, t.pend, t.work.ph, t.statusWord)) = some (false, none, .idle, 0) := by decide

/-! Witnesses: concrete states and operands that meet the hypotheses of each statement, clause by clause. -/

/-- A legal running state, from its parts. -/
theorem tLegal_running {s : State} (hp : s.params = Params.reference) (hdin : s.din.within 256) (hdout : s.dout.within 256)
    (hb : s.busy = true) (hrun : s.Running) (he : s.errCode = .none ∧ s.failOp = 0 ∧ s.adapterCode = 0)
    (hsil : s.silent = true → s.pend ≠ none := by intro h; exact absurd h Bool.false_ne_true) : s.Legal where
  params := by rw [hp]; unfold paramsLegal; decide
  din := by rw [hp]; exact hdin
  dout := by rw [hp]; exact hdout
  running := fun _ => hrun
  idle := fun h => by simp [hb] at h
  oneEnd := by simp [hrun.flags.1]
  unanswered := hsil
  noError := fun _ => he
  error := fun h => by simp [hrun.flags.2.1] at h
  adapterOnly := fun _ => he.2.2

theorem tReady_din : tReady.din.within 256 := by unfold Memory.within; decide

/-- A legal idle state, with operands and a message. -/
theorem witness_legal_idle : tReady.Legal where
  params := by unfold paramsLegal; decide
  din := tReady_din
  dout := by unfold Memory.within; decide
  running := fun h => by simp [tReady, tIdle, State.reset] at h
  idle := fun _ => ⟨rfl, rfl, rfl⟩
  oneEnd := by decide
  unanswered := fun h => by simp [tReady, tIdle, State.reset] at h
  noError := fun _ => ⟨rfl, rfl, rfl⟩
  error := fun h => by simp [tReady, tIdle, State.reset] at h
  adapterOnly := fun _ => rfl

/-- A legal state after an error, with an adapter's code. -/
theorem witness_legal_error :
    State.Legal { State.reset with err := true, errCode := .adapterFailure, failOp := 0x08, adapterCode := 0x5A } where
  params := by unfold paramsLegal; decide
  din := by unfold Memory.within; decide
  dout := by unfold Memory.within; decide
  running := fun h => by simp [State.reset] at h
  idle := fun _ => ⟨rfl, rfl, rfl⟩
  oneEnd := by decide
  unanswered := fun h => by simp [State.reset] at h
  noError := fun h => by simp at h
  error := fun _ => ⟨by decide, rfl, rfl⟩
  adapterOnly := fun h => by simp at h

/-- ENCRYPT in IPEK_L, about to send its first request. -/
def tIpekL : State := tIn tReady 0x08 .data .ipekL []

theorem witness_legal_ipekL : tIpekL.Legal :=
  tLegal_running rfl tReady_din (by unfold Memory.within; decide) rfl
    { phase := by simp [State.phaseLegal, tIpekL, tIn]
      port := ⟨trivial, trivial⟩
      flags := ⟨rfl, rfl, rfl⟩
      noOutput := fun _ => rfl
      length := fun _ => by unfold State.lenLegal; decide } ⟨rfl, rfl, rfl⟩

/-- DERIVE_KEY in the walk's last iteration, its counter bit set. -/
def tWalkSet (answers : List Block) : State :=
  tWalk (tIn (tIdle tIpek 0xFFFF9876543210E00001#80 0 0 []) 0x02 .pin .walk answers) 0x9876543210E00000#64 tIpek 0x000001#21

theorem witness_legal_walk : (tWalkSet []).Legal :=
  tLegal_running rfl (by unfold Memory.within; decide) (by unfold Memory.within; decide) rfl
    { phase := by simp [State.phaseLegal, tWalkSet, tWalk, tIn]
      port := ⟨trivial, trivial⟩
      flags := ⟨rfl, rfl, rfl⟩
      noOutput := fun _ => rfl
      length := by simp [tWalkSet, tWalk, tIn] } ⟨rfl, rfl, rfl⟩

/-- GENERATE_KEY in GEN, with the answers had so far. -/
def tGen (answers : List Block) : State := tIn (tIdle 0 0 0 0 []) 0x03 .pin .gen answers

theorem tGen_legal (answers : List Block) (h : answers.length ≤ 2) : (tGen answers).Legal :=
  tLegal_running rfl ⟨rfl, fun _ h => nomatch h⟩ ⟨rfl, fun _ h => nomatch h⟩ rfl
    { phase := rfl
      port := by
        constructor
        · match answers, h with
          | [], _ => trivial
          | [_], _ => trivial
          | [_, _], _ => trivial
        · trivial
      flags := ⟨rfl, rfl, rfl⟩
      noOutput := fun _ => rfl
      length := by simp [tGen, tIn] } ⟨rfl, rfl, rfl⟩

/-- A legal state whose request is pending: the first of ENCRYPT. -/
def tPending : State := { tIpekL with pend := some (.tdesE tBdk (ipekRegister tKsn)) }

theorem witness_legal_pending : tPending.Legal :=
  tLegal_running rfl tReady_din (by unfold Memory.within; decide) rfl
    { phase := by simp [State.phaseLegal, tPending, tIpekL, tIn]
      port := ⟨trivial, ⟨_, rfl⟩⟩
      flags := ⟨rfl, rfl, rfl⟩
      noOutput := fun _ => rfl
      length := fun _ => by unfold State.lenLegal; decide } ⟨rfl, rfl, rfl⟩

/-- DECRYPT in DATA at the last of two blocks, the first block's output written. -/
def tData (answers : List Block) : State :=
  let s := tIn (tIdle tBdk tKsn 0 16 [tText, tText]) 0x09 .pin .data answers
  { s with dout := [(0, 0x51), (7, 0xCC)], work := { s.work with bi := 1 } }

theorem tData_len : (tData []).lenLegal := by unfold State.lenLegal; decide

theorem tData_din : (tData []).din.within 256 := by unfold Memory.within; decide

theorem tData_dout : (tData []).dout.within 256 := by unfold Memory.within; decide

theorem tData_running (answers : List Block) (h : answers.length ≤ 1) : (tData answers).Running where
  phase := by
    refine ⟨by simp [tData, tIn], by simp [tData, tIn, tIdle], ?_⟩
    intro a ha
    have h8 : 8 ≤ a := by simpa [tData] using ha
    have h0 : (0 : Nat) ≠ a := by omega
    have h7 : (7 : Nat) ≠ a := by omega
    simp [tData, Memory.read, h0, h7]
  port := by
    constructor
    · match answers, h with
      | [], _ => trivial
      | [_], _ => trivial
    · trivial
  flags := ⟨rfl, rfl, rfl⟩
  noOutput := fun h => absurd rfl h
  length := fun _ => tData_len

theorem witness_legal_data (answers : List Block) (h : answers.length ≤ 1) : (tData answers).Legal :=
  tLegal_running rfl tData_din tData_dout rfl (tData_running answers h) ⟨rfl, rfl, rfl⟩

/-! The statements, in their order. -/

theorem witness_LegalWordsAreTheThirteen :
    decode 0x00000107#32 = .ok (.sessionKey .data) ∧ (0x00000107#32).getLsbD 8 = true ∧
    decode 0x00000108#32 = .ok (.encrypt .data) ∧ decode 0x00000109#32 = .ok (.decrypt .data) := ⟨rfl, rfl, rfl, rfl⟩

/-- R106's checks, each at the ends of its range: RSV's lowest and highest bit; OP 0x00, 0x0A, 0x0E, 0x10, 0xFF; V = 1 with 0x01, 0x06, 0x0F; OP
0x01, 0x06, 0x0F with V = 0; 0x07, 0x09 with V = 1. -/
theorem witness_DecodeFollowsTheChecks :
    [0x00000201#32, 0x80000001#32].all (fun w => w.extractLsb' 9 23 != 0) = true ∧
    [0x00#8, 0x0A#8, 0x0E#8, 0x10#8, 0xFF#8].all (fun op => !((1 ≤ op.toNat && op.toNat ≤ 9) || op.toNat == 0x0F)) = true ∧
    [0x00000101#32, 0x00000106#32, 0x0000010F#32].all (fun w => w.extractLsb' 9 23 == 0 && w.getLsbD 8 &&
      !(7 ≤ (w.extractLsb' 0 8).toNat && (w.extractLsb' 0 8).toNat ≤ 9)) = true ∧
    [0x00000001#32, 0x00000006#32, 0x0000000F#32].all (fun w => w.extractLsb' 9 23 == 0 && !w.getLsbD 8) = true ∧
    [0x00000107#32, 0x00000109#32].all (fun w => w.extractLsb' 9 23 == 0 && w.getLsbD 8 &&
      (7 ≤ (w.extractLsb' 0 8).toNat && (w.extractLsb' 0 8).toNat ≤ 9)) = true := by decide

theorem witness_DecodeEncodeAgree : decode 0x00000109#32 = .ok (.decrypt .data) := rfl

theorem witness_StepRunsTheDecodedCommand :
    ({ tReady with inputs := [hostWr tReady.params 0x010 0x00000108#32] } : State).inputs =
      hostWr tReady.params 0x010 0x00000108#32 :: [] ∧ decode 0x00000108#32 = .ok (.encrypt .data) := ⟨rfl, rfl⟩

/-- LEN at both ends of its range. -/
theorem witness_AcceptedCommandStarts :
    tReady.busy = false ∧ tReady.ops.kinWm = 0b1111#4 ∧ tReady.ops.ksnWm = 0b111#3 ∧ tReady.ops.regWm = 0b11#2 ∧
    [8#16, 256#16].all (fun n => n.toNat % 8 == 0 && 8 ≤ n.toNat && n.toNat ≤ tReady.params.dbufBytes) = true := by decide

theorem witness_ClearScrubsEverything :
    tReady.busy = false ∧ tIpekL.busy = true ∧ (0x0000010F#32).extractLsb' 0 8 = 0x0F#8 ∧ 0x0000010F#32 ≠ 0x0000000F#32 := by
  decide

/-- One state for each check of R133 that fails: LEN 0, 7, 12 and 264. -/
theorem witness_IssueChecksInOrder :
    tReady.busy = false ∧ decode 0x00000000#32 = .error .reservedOp ∧
    ({ tReady with ops := { tReady.ops with kinWm := 0b0111#4 } } : State).ops.kinWm ≠ 0b1111#4 ∧
    ({ tReady with ops := { tReady.ops with ksnWm := 0b110#3 } } : State).ops.ksnWm ≠ 0b111#3 ∧
    ({ tReady with ops := { tReady.ops with regWm := 0b01#2 } } : State).ops.regWm ≠ 0b11#2 ∧
    (tIdle tBdk tKsn 0 0 []).ops.len.toNat = 0 ∧ (tIdle tBdk tKsn 0 7 []).ops.len.toNat % 8 ≠ 0 ∧
    (tIdle tBdk tKsn 0 12 []).ops.len.toNat % 8 ≠ 0 ∧ (tIdle tBdk tKsn 0 264 []).ops.len.toNat % 8 = 0 ∧
    tReady.params.dbufBytes < (tIdle tBdk tKsn 0 264 []).ops.len.toNat := by decide

theorem witness_IllegalWordEndsInIllegalCommand :
    tReady.busy = false ∧ (0x00000200#32).extractLsb' 9 23 ≠ 0 ∧ ((0x0000000A#32).extractLsb' 0 8).toNat = 0x0A ∧
    (0x0000010F#32).getLsbD 8 = true ∧ ((0x0000010F#32).extractLsb' 0 8).toNat = 0x0F := by decide

/-- The first and the last word of the buffers. -/
theorem witness_WritesWhileBusyAreIgnored :
    tIpekL.busy = true ∧ tIpekL.params.dbufBytes ≤ 0x400 ∧ (0 % 4 = 0 ∧ 0 < tIpekL.params.dbufBytes) ∧
    (252 % 4 = 0 ∧ 252 < tIpekL.params.dbufBytes) := by decide

theorem witness_IssueFrame :
    (∃ t, exec (.encrypt .data) tReady = .next t ∧ tReady.busy = false) ∧
    ∃ t, exec .createIpek tIpekL = .next t ∧ tIpekL.busy = true := ⟨⟨_, rfl, rfl⟩, ⟨_, rfl, rfl⟩⟩

theorem witness_AfterResetCommandsNeedOperands :
    Instr.encrypt .pin ≠ .clear ∧ decode 0x0000010F#32 = .error .variantNotTaken := ⟨by decide, rfl⟩

theorem witness_IpekPhases :
    tIpekL.inputs = [] ∧ tIpekL.busy = true ∧ tIpekL.pend = none ∧ tIpekL.work.ph = .ipekL ∧ tIpekL.answers = [] ∧
    (tIn tReady 0x01 .pin .ipekL [5]).answers = [5] ∧ (tIn tReady 0x01 .pin .ipekR []).work.ph = .ipekR ∧
    (tIn tReady 0x01 .pin .ipekR [5]).work.opc = 0x01#8 ∧ (tIn tReady 0x07 .pin .ipekR [5]).work.opc ≠ 0x01#8 := by decide

/-- The bit under the cursor clear, and set, with none, one and both of the answers; the cursor at bit 20 and at bit 1. -/
theorem witness_WalkIteration :
    let clear := tWalk (tIn (tIdle tIpek tKsn 0 0 []) 0x02 .pin .walk []) 0 tIpek 0x100000#21
    let set := fun l => tWalk (tIn (tIdle tIpek tKsn 0 0 []) 0x02 .pin .walk l) 0 tIpek 0x000002#21
    (clear.busy = true ∧ clear.pend = none ∧ clear.work.ph = .walk ∧ clear.work.sr >>> 1 ≠ 0 ∧
      clear.work.sr.setWidth 80 &&& clear.ops.ksn &&& 0x1FFFFF#80 = 0) ∧
    ((set []).work.sr >>> 1 ≠ 0 ∧ (set []).work.sr.setWidth 80 &&& (set []).ops.ksn &&& 0x1FFFFF#80 ≠ 0 ∧
      (set [1]).answers = [1] ∧ (set [1, 2]).answers = [1, 2] ∧ (set []).inputs = []) := by decide

/-- The walk's last iteration with its bit clear, for each of the commands that walk and each variant. -/
theorem witness_WalkEndAndVariantStep :
    (walkIteration (0 : Ksn) { kreg := 0, cur := tIpek, sr := 0x000001#21 }).resume [] =
      .ret { kreg := 0, cur := tIpek, sr := 0 } ∧
    ∀ op ∈ [0x02#8, 0x05#8, 0x06#8, 0x07#8, 0x08#8, 0x09#8], ∀ v ∈ [Variant.pin, Variant.data],
      let s := tWalk (tIn (tIdle tIpek 0 0 8 []) op v .walk []) 0 tIpek 0x000001#21
      s.inputs = [] ∧ s.busy = true ∧ s.pend = none ∧ s.work.ph = .walk ∧ s.work.opc = op ∧ s.work.var = v := by
  refine ⟨rfl, ?_⟩
  decide

theorem witness_DekPhases :
    ∀ op ∈ [0x06#8, 0x07#8, 0x08#8, 0x09#8], ∀ ph ∈ [Phase.dekL, Phase.dekR], ∀ l ∈ [[], [(5 : Block)]],
      let s := tIn tReady op .data ph l
      s.inputs = [] ∧ s.busy = true ∧ s.pend = none ∧ s.work.ph = ph ∧ s.work.opc = op ∧ s.answers = l := by decide

/-- A message command in DATA, two blocks long, at block `bi`. -/
def tDataAt (op : BitVec 8) (bi : BitVec 16) (answers : List Block) : State :=
  { tIdle tBdk tKsn 0 16 [] with
    busy := true, answers := answers, work := { Working.scrubbed with opc := op, ph := .data, bi := bi } }

/-- The first and the last of two blocks, and the last block of a full buffer. -/
theorem witness_DataPhases (op : BitVec 8) (bi : BitVec 16) (l : List Block) :
    (tDataAt op bi l).inputs = [] ∧ (tDataAt op bi l).busy = true ∧ (tDataAt op bi l).pend = none ∧
    (tDataAt op bi l).work.ph = .data ∧ (tDataAt op bi l).work.opc = op ∧ (tDataAt op bi l).answers = l ∧
    (tDataAt op bi l).work.bi = bi ∧ (tDataAt op bi l).ops.len = 16 ∧ (tDataAt op bi l).params.dbufBytes = 256 ∧
    8 * (0#16).toNat + 8 ≤ 256 ∧ (0#16 + 1).toNat ≠ (16#16).toNat / 8 ∧ 8 * (1#16).toNat + 8 ≤ 256 ∧
    (1#16 + 1).toNat = (16#16).toNat / 8 ∧ 8 * (31#16).toNat + 8 ≤ 256 :=
  ⟨rfl, rfl, rfl, rfl, rfl, rfl, rfl, rfl, rfl, by decide, by decide, by decide, by decide, by decide⟩

theorem witness_GenAndEregPhases :
    (tGen []).inputs = [] ∧ (tGen []).busy = true ∧ (tGen []).pend = none ∧ (tGen [1, 2]).work.ph = .gen ∧
    (tGen [1, 2]).answers = [1, 2] ∧ (tIn tReady 0x04 .pin .ereg [1]).work.ph = .ereg := by decide

theorem witness_AdapterAnswerOrFailure :
    tPending.inputs = [] ∧ (∃ q, tPending.pend = some q) ∧ tPending.silent = false ∧
    (∃ r, tPending.adapter (.tdesE tBdk (ipekRegister tKsn)) = .ok r) ∧
    ∃ x, adapterAnswer { table := [], backend := .alwaysFail 0xFF } (.tdesE tBdk (ipekRegister tKsn)) = .fail x := by
  refine ⟨rfl, ⟨_, rfl⟩, rfl, ⟨tdesEncrypt tBdk (ipekRegister tKsn), ?_⟩, ⟨0xFF, ?_⟩⟩
  · simp [State.adapter, adapterAnswer, tPending, tIpekL, tIn, tReady, tIdle, State.reset, Params.reference, backendAnswer,
      referenceAdapter]
  · simp [adapterAnswer, backendAnswer]

/-- A pending request that is never answered. -/
def tHung : State := { tPending with silent := true }

theorem witness_legal_hung : tHung.Legal :=
  tLegal_running rfl tReady_din (by unfold Memory.within; decide) rfl
    { phase := by simp [State.phaseLegal, tHung, tPending, tIpekL, tIn]
      port := ⟨trivial, ⟨_, rfl⟩⟩
      flags := ⟨rfl, rfl, rfl⟩
      noOutput := fun _ => rfl
      length := fun _ => by unfold State.lenLegal; decide } ⟨rfl, rfl, rfl⟩ (fun _ h => nomatch h)

/-- A request about to go unanswered, and one that is. -/
theorem witness_HangUntilReset :
    (tPending.busy = true ∧ (∃ q, tPending.pend = some q) ∧ tPending.after .noAnswer = .next tHung) ∧
    tHung.busy = true ∧ (∃ q, tHung.pend = some q) ∧ tHung.silent = true ∧ tHung.inputs = [] ∧
    Input.tick ≠ Input.reset ∧ ∃ t, tHung.after .tick = .next t :=
  ⟨⟨rfl, ⟨_, rfl⟩, rfl⟩, rfl, ⟨_, rfl⟩, rfl, rfl, by decide, ⟨_, rfl⟩⟩

/-- One request of each kind. -/
theorem witness_RequestsByPhase :
    ((tGen []).Legal ∧ (tGen []).pend = none ∧ ∃ t k b, step (tGen []) = .next t ∧ t.pend = some (.desE k b)) ∧
    (tIpekL.Legal ∧ tIpekL.pend = none ∧ ∃ t k b, step tIpekL = .next t ∧ t.pend = some (.tdesE k b)) ∧
    ((tData []).Legal ∧ (tData []).pend = none ∧ ∃ t k b, step (tData []) = .next t ∧ t.pend = some (.tdesD k b)) :=
  ⟨⟨tGen_legal [] (by decide), rfl, _, _, _, rfl, rfl⟩, ⟨witness_legal_ipekL, rfl, _, _, _, rfl, rfl⟩,
    ⟨witness_legal_data [] (by decide), rfl, _, _, _, rfl, rfl⟩⟩

theorem witness_ReferenceAdapterIsTwoKeyEde :
    Params.reference.adapter.backend = .reference ∧ Params.reference.adapter.table = [] := ⟨rfl, rfl⟩

/-- An accepted command of every kind, at the default schedule. -/
theorem witness_delivery :
    tReady.quiet ∧ tReady.accepts .createIpek ∧ tReady.accepts .deriveKey ∧ tReady.accepts .generateKey ∧
    tReady.accepts .encryptRegister ∧ tReady.accepts .sessionPek ∧ tReady.accepts .sessionDek ∧
    (∀ v, tReady.accepts (.sessionKey v) ∧ tReady.accepts (.encrypt v) ∧ tReady.accepts (.decrypt v)) ∧
    (tIdle tBdk tKsn 0 256 []).accepts (.encrypt .data) := by
  refine ⟨⟨rfl, rfl, rfl, rfl⟩, ⟨rfl, rfl⟩, ⟨rfl, rfl⟩, ⟨rfl, rfl⟩, ⟨rfl, rfl⟩, ⟨rfl, rfl⟩, ⟨rfl, rfl⟩, ?_, ⟨rfl, rfl⟩⟩
  exact fun _ => ⟨⟨rfl, rfl⟩, ⟨rfl, rfl⟩, ⟨rfl, rfl⟩⟩

theorem witness_IssueFixesTheOutcome :
    tReady.Legal ∧ Instr.encrypt .data ≠ .clear ∧ tReady.accepts (.encrypt .data) :=
  ⟨witness_legal_idle, by decide, rfl, rfl⟩

/-- A step after which the command goes on, and one that ends it. -/
theorem witness_OutcomeHoldsForEverySchedule :
    (tIpekL.Legal ∧ tIpekL.busy = true ∧ tIpekL.inputs.head? ≠ some .reset ∧ ∃ t, step tIpekL = .next t ∧ t.busy = true) ∧
    ((tGen [1, 2]).Legal ∧ (tGen [1, 2]).busy = true ∧ (tGen [1, 2]).inputs.head? ≠ some .reset ∧
      ∃ t, step (tGen [1, 2]) = .next t ∧ t.busy = false) :=
  ⟨⟨witness_legal_ipekL, rfl, by decide, _, rfl, rfl⟩, ⟨tGen_legal _ (by decide), rfl, by decide, _, rfl, rfl⟩⟩

/-- A request is sent, and a request is answered. -/
theorem witness_RequestsAreSentInOrder :
    (tIpekL.Legal ∧ tIpekL.busy = true ∧ ∃ t q, step tIpekL = .next t ∧ t.busy = true ∧ t.pend = some q) ∧
    (tPending.Legal ∧ tPending.busy = true ∧ tPending.inputs.head? ≠ some .reset ∧
      ∃ t, step tPending = .next t ∧ t.busy = true ∧ t.pend = none) ∧
    tReady.Legal ∧ tReady.accepts .deriveKey ∧ ∃ t, exec .deriveKey tReady = .next t :=
  ⟨⟨witness_legal_ipekL, rfl, _, _, rfl, rfl, rfl⟩, ⟨witness_legal_pending, rfl, by decide, _, rfl, rfl, rfl⟩,
    witness_legal_idle, ⟨rfl, rfl⟩, _, rfl⟩

theorem witness_EveryCommandEnds :
    tPending.Legal ∧ tPending.busy = true ∧ tPending.inputs = [] ∧ tPending.silent = false :=
  ⟨witness_legal_pending, rfl, rfl, rfl⟩

/-- The reference adapter meets the premise of R217 (93_implementation_defined.md G3). -/
theorem witness_DecryptUndoesEncrypt :
    tReady.Legal ∧ tReady.accepts (.encrypt .data) ∧ tReady.quiet ∧
    ∀ k b c, tReady.adapter (.tdesE k b) = .ok c → tReady.adapter (.tdesD k c) = .ok b := by
  refine ⟨witness_legal_idle, ⟨rfl, rfl⟩, ⟨rfl, rfl, rfl, rfl⟩, ?_⟩
  intro k b c h
  have hc : tdesEncrypt k b = c := by
    have h' : Response.ok (tdesEncrypt k b) = Response.ok c := h
    exact Response.ok.inj h'
  show Response.ok (tdesDecrypt k c) = Response.ok b
  rw [← hc, tdesDecrypt_tdesEncrypt]

/-- ENCRYPT of one block with zero operands, at an adapter given by a table: the state accepts it, and its run completes. -/
def tTable : State :=
  let s := tIdle 0 0 0 8 [tText]
  { s with params := { s.params with adapter :=
    { table := [(.tdesE 0 0, .ok 0), (.tdesE keyMask 0, .ok 0), (.tdesE pekMask tText, .ok 5)], backend := .alwaysFail 0 } } }

theorem witness_legal_table : tTable.Legal where
  params := by unfold paramsLegal; decide
  din := by unfold Memory.within; decide
  dout := by unfold Memory.within; decide
  running := fun h => nomatch h
  idle := fun _ => ⟨rfl, rfl, rfl⟩
  oneEnd := by decide
  unanswered := fun h => nomatch h
  noError := fun _ => ⟨rfl, rfl, rfl⟩
  error := fun h => nomatch h
  adapterOnly := fun _ => rfl

theorem witness_MessageTailIsZero :
    tTable.Legal ∧ tTable.accepts (.encrypt .pin) ∧ tTable.quiet ∧
    ∃ t, exec (.encrypt .pin) tTable = .next t ∧
      (tNext (runSteps (117 + 3 * (tTable.ops.len.toNat / 8)) t)).map (fun u => (u.done, u.dout.read64 0)) = some (true, 5) := by
  refine ⟨witness_legal_table, ⟨rfl, rfl⟩, ⟨rfl, rfl, rfl, rfl⟩, _, rfl, ?_⟩
  decide +kernel

/-- Legal states that step, and one that hangs. -/
theorem witness_OnlyAHangStops :
    tPending.Legal ∧ tReady.Legal ∧ (tGen [1, 2]).Legal ∧ tHung.Legal ∧ step tHung = .fault .hang :=
  ⟨witness_legal_pending, witness_legal_idle, tGen_legal _ (by decide), witness_legal_hung, rfl⟩

/-- A step that ends in a legal state, from one that is. -/
theorem witness_LegalStatesAreKept : (tData [5]).Legal ∧ ∃ t, step (tData [5]) = .next t :=
  ⟨witness_legal_data [5] (by decide), _, rfl⟩

theorem witness_BuffersStayCanonical :
    (tData [5]).din.wf = true ∧ (tData [5]).dout.wf = true ∧ ∃ t, step (tData [5]) = .next t := ⟨tData_din.1, by decide, _, rfl⟩

/-- The end of a command in progress; an illegal word, CLEAR and a failed check at issue. -/
theorem witness_CompletionScrubs :
    ((tGen [1, 2]).busy = true ∧ ∃ t, step (tGen [1, 2]) = .next t ∧ t.busy = false) ∧
    (State.reset.busy = false ∧ (∃ t, State.reset.after (hostWr State.reset.params 0x010 0x0000010F#32) = .next t ∧ t.busy = false) ∧
      (∃ t, State.reset.after (hostWr State.reset.params 0x010 0x0000000F#32) = .next t ∧ t.busy = false) ∧
      ∃ t, State.reset.after (hostWr State.reset.params 0x010 0x00000001#32) = .next t ∧ t.busy = false) ∧
    ∃ t, exec .createIpek State.reset = .next t ∧ t.busy = false :=
  ⟨⟨rfl, _, rfl, rfl⟩, ⟨rfl, ⟨_, rfl, rfl⟩, ⟨_, rfl, rfl⟩, _, rfl, rfl⟩, _, rfl, rfl⟩

/-- Two states with different keys look alike to the host. -/
theorem witness_HiddenStateIsUnobservable :
    tReady.hostView = ({ tReady with ops := { tReady.ops with kIn := tIpek } } : State).hostView ∧
    tReady ≠ { tReady with ops := { tReady.ops with kIn := tIpek } } := ⟨rfl, by decide⟩

theorem witness_HostCannotDisturbTheEngine : tPending.busy = true := rfl

/-- Two states that differ only in what the host sees, alike to the engine; no request pending; one pending, to be answered; one never to be. -/
theorem witness_EngineStepIsDetermined :
    (tIpekL.engineView = ({ tIpekL with irqEn := true, wrIgn := true } : State).engineView ∧
      ∃ t, tIpekL.after .tick = .next t) ∧
    (tIpekL.inputs = [] ∧ tIpekL.pend = none) ∧ (tPending.inputs = [] ∧ tPending.pend ≠ none ∧ tPending.silent = false) ∧
    (tHung.pend ≠ none ∧ tHung.silent = true) := ⟨⟨rfl, _, rfl⟩, ⟨rfl, rfl⟩, ⟨rfl, by decide, rfl⟩, by decide, rfl⟩

/-- R130, R135: a tick before further inputs takes the engine's step: IPEK_L sends its request. -/
theorem test_tick_steps_the_engine :
    (tNext (State.after { tIpekL with inputs := [.reset] } .tick)).map (fun t => (t.pend, t.inputs)) =
      some (some (.tdesE tBdk (ipekRegister tKsn)), [.reset]) := by decide

/-- In DATA, before and at a block's end; and a request that fails. -/
def tFailing : State :=
  { tPending with params := { Params.reference with adapter := { table := [], backend := .alwaysFail 0x5A } } }

theorem witness_EngineStepFrame :
    ((tData []).dout.wf = true ∧ (tData []).inputs = [] ∧ ∃ t, step (tData []) = .next t ∧ t.busy = true) ∧
    ((tData [5]).dout.wf = true ∧ ∃ t, step (tData [5]) = .next t ∧ t.busy = false) ∧
    (tFailing.dout.wf = true ∧ tFailing.inputs = [] ∧ ∃ t, step tFailing = .next t ∧ t.err = true) :=
  ⟨⟨by decide, rfl, _, rfl, rfl⟩, ⟨by decide, _, rfl, by decide⟩, by decide, rfl, _, rfl, rfl⟩

theorem witness_ResultsLastUntilTheNextIssue :
    tReady.busy = false ∧ tReady.pend = none ∧ (∃ t, tReady.after .tick = .next t) ∧ Input.tick ≠ .reset ∧
    ∀ w, Input.tick ≠ hostWr tReady.params 0x010 w := ⟨rfl, rfl, ⟨_, rfl⟩, by decide, fun _ => by simp [hostWr]⟩

/-- WR_IGN set, and cleared by a STATUS write. -/
theorem witness_WrIgnIsSticky :
    let s : State := { tReady with wrIgn := true }
    s.wrIgn = true ∧ (tNext (s.after (hostWr s.params 0x00C 0x00000008#32))).map (·.wrIgn) = some false := by decide

/-- DBUF_BYTES at both ends of its range, and the last word of the buffers. -/
theorem witness_RegisterReads :
    [8, 1024].all (fun n => n ≤ 0x400) = true ∧ 1020 % 4 = 0 ∧ 1020 < 1024 := by decide

theorem witness_ReadOnlyAndWriteOnly :
    tReady.params.dbufBytes ≤ 0x400 ∧ 252 % 4 = 0 ∧ 252 < tReady.params.dbufBytes := by decide

theorem witness_RegisterWritesWhileIdle :
    tReady.busy = false ∧ tReady.params.dbufBytes ≤ 0x400 ∧ 252 % 4 = 0 ∧ 252 < tReady.params.dbufBytes := by decide

/-- An idle state that takes the operand writes, and a STATUS read of 1 and of 0 in BUSY. -/
theorem witness_PseudoOperationsLoadOperands :
    tReady.busy = false ∧
    (tNext (tIpekL.after (hostRd tIpekL.params 0x00C))).map (·.resp) = some (some (.word 0x00000701#32)) ∧
    (tNext (State.reset.after (hostRd State.reset.params 0x00C))).map (·.resp) = some (some (.word 0#32)) := by decide

theorem witness_DinWordWriteAndReadBack :
    tReady.busy = false ∧ tReady.params.dbufBytes ≤ 0x400 ∧ tReady.din.wf = true ∧ 252 % 4 = 0 ∧
    252 < tReady.params.dbufBytes := ⟨rfl, by decide, tReady_din.1, by decide, by decide⟩

/-- Each clause of R73 to R75 at the ends of its range; the mapped neighbours 0x018, 0x05C, 0x8FC and 0xCFC are in none. -/
theorem witness_BusErrorsChangeNothing :
    let unmapped := fun (off : Nat) => (off % 4 ≠ 0 ∨ off = 0x01C ∨ off = 0x03C ∨ (0x048 ≤ off ∧ off < 0x050) ∨
      (0x060 ≤ off ∧ off < 0x800) ∨ (0x800 + tReady.params.dbufBytes ≤ off ∧ off < 0xC00) ∨
      0xC00 + tReady.params.dbufBytes ≤ off : Prop)
    (∀ off ∈ [0x001, 0x01C, 0x03C, 0x048, 0x04C, 0x060, 0x7FC, 0x900, 0xBFC, 0xD00, 0xFFC], unmapped off ∧ off < 4096) ∧
    (∀ off ∈ [0x018, 0x020, 0x044, 0x050, 0x05C, 0x800, 0x8FC, 0xC00, 0xCFC], ¬unmapped off) ∧
    AccessWidth.w8 ≠ .w32 ∧ (Access.read (tReady.params.base + 0x01C) .w32).addr = tReady.params.base + 0x01C := by
  decide

theorem witness_ReadsArePureAndWritesIdempotent :
    tReady.din.wf = true ∧ commandWrite tReady.params (.write 0x020 .w32 5) = none ∧
    (∃ t, tReady.after (.access (.write 0x020 .w32 5)) = .next t) ∧
    (Access.write 0x1020 .w32 5).addr = tReady.params.base + 4096 + 0x020 ∧
    (Access.read 0xFFF .w32).addr < ({ Params.reference with base := 0x1000 } : Params).base :=
  ⟨tReady_din.1, by decide, ⟨_, rfl⟩, rfl, by decide⟩

theorem witness_InterruptLine : Instr.deriveKey ≠ .clear ∧ tReady.accepts .deriveKey := ⟨by decide, rfl, rfl⟩

/-- Two KSNs that differ in the counter alone, and an adapter that answers. -/
theorem witness_IpekReadsOnlyTheDeviceId :
    tKsn.extractLsb' 21 59 = (0xFFFF9876543210FFFFFF#80).extractLsb' 21 59 ∧
    (∃ l, referenceAdapter (.tdesE tBdk (tKsn.extractLsb' 21 59 ++ 0#5)) = .ok l) ∧
    ∃ r, referenceAdapter (.tdesE (tBdk ^^^ 0xC0C0C0C000000000C0C0C0C000000000#128) (tKsn.extractLsb' 21 59 ++ 0#5)) = .ok r :=
  ⟨by decide, ⟨_, rfl⟩, ⟨_, rfl⟩⟩

/-- Two KSNs that differ in their top 16 bits, and one with counter 0 (V7). -/
theorem witness_WalkReadsOnlyTheLowBits :
    tKsn.extractLsb' 0 64 = (0x00009876543210E00002#80).extractLsb' 0 64 ∧
    (0xFFFF9876543210E00000#80).extractLsb' 0 21 = 0 := by decide

theorem witness_WalkRequestsTwicePerCounterBit : ∀ q, ∃ r, referenceAdapter q = .ok r := by
  intro q
  cases q <;> exact ⟨_, rfl⟩

theorem witness_WalkEndsWithTheKsn :
    ∃ w, (walkIterations 0 21 { kreg := walkKsnReg 0, cur := tIpek, sr := 0x100000#21 }).eval referenceAdapter = .ok w := ⟨_, rfl⟩

end Sys2Proof.Machine
end

