-- ==== Sys2Proof/Proofs/Legal.lean ====
section
/-! PROOFS. Every step keeps the legal states (10_state.md R35, R42, R45, R46). The order: the buffers' sizes; the values a computation can have and
the requests it sends whatever it does with its values; the cipher port of a command in progress; the updates of the state one by one (host,
issue, completions); the phase actions; the step. -/

namespace Sys2Proof.Machine

/-! Buffers within their size (10_state.md R47). -/

theorem Memory.within_nil (n : Nat) : Memory.within [] n := ⟨rfl, fun _ hc => nomatch hc⟩

theorem Memory.within_put {m : Memory} {n a : Nat} (h : m.within n) (ha : a < n) (b : BitVec 8) : (m.put a b).within n :=
  ⟨Memory.wf_put h.1 a b, fun c hc => (Memory.mem_put hc).elim (h.2 c) fun hnew => hnew ▸ ha⟩

theorem Memory.within_write32 {m : Memory} {n off : Nat} (h : m.within n) (ho : off + 4 ≤ n) (v : Word) :
    (m.write32 off v).within n :=
  Memory.within_put (Memory.within_put (Memory.within_put (Memory.within_put h (by omega) _) (by omega) _) (by omega) _)
    (by omega) _

theorem Memory.within_write64 {m : Memory} {n off : Nat} (h : m.within n) (ho : off + 8 ≤ n) (v : Block) :
    (m.write64 off v).within n :=
  Memory.within_write32 (Memory.within_write32 h (by omega) _) (by omega) _

/-! The values of a computation, whatever the cipher answers. -/

section
variable {α β : Type}

/-- Some answers to the requests of `p` lead to the value `a`. -/
def Prog.Yields (p : Prog α) (a : α) : Prop :=
  match p with
  | .ret b => a = b
  | .call _ k => ∃ r, Prog.Yields (k r) a

@[simp] theorem Prog.yields_ret (b a : α) : (Prog.ret b).Yields a ↔ a = b := Iff.rfl

@[simp] theorem Prog.yields_call (q : Request) (k : Block → Prog α) (a : α) :
    (Prog.call q k).Yields a ↔ ∃ r, (k r).Yields a := Iff.rfl

theorem Prog.yields_bind (p : Prog α) (f : α → Prog β) (b : β) :
    (p.bind f).Yields b ↔ ∃ a, p.Yields a ∧ (f a).Yields b := by
  induction p with
  | ret a => simp
  | call q k ih =>
    simp only [Prog.call_bind, Prog.yields_call, ih]
    exact ⟨fun ⟨r, a, ha, hb⟩ => ⟨a, ⟨r, ha⟩, hb⟩, fun ⟨a, ⟨r, ha⟩, hb⟩ => ⟨r, a, ha, hb⟩⟩

/-- A computation that has ended has one of its values. -/
theorem Prog.yields_of_resume {p : Prog α} {rs : List Block} {a : α} (h : p.resume rs = .ret a) : p.Yields a := by
  induction rs generalizing p with
  | nil => simp_all
  | cons r rs ih =>
    cases p with
    | ret b => simp_all
    | call q k => exact ⟨r, ih h⟩

/-! The requests of a computation, apart from its values: two computations that differ in their values only have the same shape. -/

/-- The computation with its values forgotten. -/
def Prog.shape (p : Prog α) : Prog Unit := p.bind fun _ => .ret ()

@[simp] theorem Prog.shape_ret (a : α) : (Prog.ret a).shape = .ret () := rfl

@[simp] theorem Prog.shape_call (q : Request) (k : Block → Prog α) :
    (Prog.call q k).shape = .call q fun r => (k r).shape := rfl

@[simp] theorem Prog.shape_bind (p : Prog α) (f : α → Prog β) : (p.bind f).shape = p.bind fun a => (f a).shape :=
  Prog.bind_assoc p f _

@[simp] theorem Prog.shape_ite (c : Prop) [Decidable c] (p q : Prog α) :
    (if c then p else q).shape = if c then p.shape else q.shape := apply_ite Prog.shape c p q

theorem Prog.fits_shape (p : Prog α) (rs : List Block) : p.shape.fits rs ↔ p.fits rs := by
  induction rs generalizing p with
  | nil => exact Iff.rfl
  | cons r rs ih =>
    cases p with
    | ret a => exact Iff.rfl
    | call q k => exact ih (k r)

theorem Prog.resume_shape (p : Prog α) (rs : List Block) : p.shape.resume rs = (p.resume rs).shape := by
  induction rs generalizing p with
  | nil => rfl
  | cons r rs ih =>
    cases p with
    | ret a => rfl
    | call q k => exact ih (k r)

/-- The request a computation has come to is the one its shape has come to. -/
theorem Prog.resume_shape_eq_call_iff (p : Prog α) (rs : List Block) (q : Request) :
    (∃ k, p.shape.resume rs = .call q k) ↔ ∃ k, p.resume rs = .call q k := by
  rw [Prog.resume_shape]
  cases p.resume rs <;> simp

/-- One more answer, to the request the computation has come to. -/
theorem Prog.fits_append {p : Prog α} {rs : List Block} {q : Request} {k : Block → Prog α} (h : p.resume rs = .call q k)
    (r : Block) : p.fits (rs ++ [r]) := by
  induction rs generalizing p with
  | nil =>
    obtain rfl : p = .call q k := h
    exact trivial
  | cons r' rs ih =>
    cases p with
    | ret a => simp at h
    | call q' k' => exact ih (p := k' r') h

end

/-! The cipher port of a command in progress (40_command_lifecycle.md R141). -/

/-- What the requests of the phase action depend on: the parameters, the operands, DIN and the working registers (R139, R141). -/
structure State.SameAction (s t : State) : Prop where
  params : t.params = s.params
  ops : t.ops = s.ops
  din : t.din = s.din
  work : t.work = s.work

/-- The phase action sends the same requests in states that agree in what it reads. -/
theorem State.SameAction.shape_eq {s t : State} (h : s.SameAction t) : (phaseAction t).shape = (phaseAction s).shape := by
  obtain ⟨hp, ho, hd, hw⟩ := h
  cases hph : s.work.ph <;>
    simp [phaseAction, phaseIpekL, phaseIpekR, phaseWalk, phaseDekL, phaseDekR, phaseData, phaseGen, phaseEreg,
      hp, ho, hd, hw, hph]

/-- The requests of the phase action run from its start (R141). -/
def State.actionShape (s : State) : Prog Unit := (phaseAction { s with answers := [] }).shape

theorem State.SameAction.actionShape_eq {s t : State} (h : s.SameAction t) : t.actionShape = s.actionShape :=
  State.SameAction.shape_eq ⟨h.params, h.ops, h.din, h.work⟩

/-- Whether the cipher port is legal is a matter of the phase action's requests, not of what it writes. -/
theorem State.portLegal_iff (s : State) :
    s.portLegal ↔ s.actionShape.fits s.answers ∧
      ∀ q, s.pend = some q → ∃ k, s.actionShape.resume s.answers = .call q k := by
  simp only [State.portLegal, State.actionShape, Prog.fits_shape, Prog.resume_shape_eq_call_iff]
  cases s.pend <;> simp

/-- The cipher port stays legal when neither the action nor the port changes. -/
theorem State.portLegal_of_same {s t : State} (h : s.portLegal) (same : s.SameAction t) (hpend : t.pend = s.pend)
    (hans : t.answers = s.answers) : t.portLegal := by
  rw [State.portLegal_iff] at h ⊢
  rwa [same.actionShape_eq, hpend, hans]

/-- Between actions the cipher port is legal. -/
theorem State.portLegal_at_start {s : State} (hpend : s.pend = none) (hans : s.answers = []) : s.portLegal := by
  simp [State.portLegal, hpend, hans, Prog.fits]

/-! The legal states from their parts. -/

theorem State.legal_of_running {s : State} (hparams : paramsLegal s.params) (hdin : s.din.within s.params.dbufBytes)
    (hdout : s.dout.within s.params.dbufBytes) (hb : s.busy = true) (hrun : s.Running)
    (hsilent : s.silent = true → s.pend ≠ none) (hno : s.errCode = .none ∧ s.failOp = 0 ∧ s.adapterCode = 0) : s.Legal where
  params := hparams
  din := hdin
  dout := hdout
  running := fun _ => hrun
  idle := fun h => by simp [hb] at h
  oneEnd := by simp [hrun.flags.1]
  unanswered := hsilent
  noError := fun _ => hno
  error := fun h => by simp [hrun.flags.2.1] at h
  adapterOnly := fun _ => hno.2.2

/-- A command in progress goes on as before in a state that differs in flags the host sees and in its cipher port. -/
theorem State.Running.transfer {s t : State} (h : s.Running) (same : s.SameAction t) (hdout : t.dout = s.dout)
    (hresult : t.result = s.result) (hdone : t.done = false) (herr : t.err = false) (hport : t.portLegal) : t.Running where
  phase := by simpa only [State.phaseLegal, same.work, same.ops, hdout] using h.phase
  port := hport
  flags := ⟨hdone, herr, hresult.trans h.flags.2.2⟩
  noOutput := by simpa only [same.work, hdout] using h.noOutput
  length := by simpa only [State.lenLegal, same.work, same.ops, same.params] using h.length

/-- The same, with the port as it was. -/
theorem State.Running.transfer_port {s t : State} (h : s.Running) (same : s.SameAction t) (hdout : t.dout = s.dout)
    (hresult : t.result = s.result) (hdone : t.done = false) (herr : t.err = false) (hpend : t.pend = s.pend)
    (hans : t.answers = s.answers) : t.Running :=
  h.transfer same hdout hresult hdone herr (State.portLegal_of_same h.port same hpend hans)

/-- An idle engine is idle whatever else changes. -/
theorem State.Idle.transfer {s t : State} (h : s.Idle) (hwork : t.work = s.work) (hpend : t.pend = s.pend)
    (hans : t.answers = s.answers) : t.Idle :=
  ⟨hwork.trans h.scrubbed, hpend.trans h.noRequest, hans.trans h.noAnswers⟩

/-- With no request pending none is left unanswered. -/
theorem State.Legal.silent_eq_false {s : State} (h : s.Legal) (hpend : s.pend = none) : s.silent = false := by
  cases hs : s.silent with
  | false => rfl
  | true => exact absurd hpend (h.unanswered hs)

/-- A command in progress has met no error. -/
theorem State.Legal.noError_of_busy {s : State} (h : s.Legal) (hb : s.busy = true) :
    s.errCode = .none ∧ s.failOp = 0 ∧ s.adapterCode = 0 := h.noError (h.running hb).flags.2.1

/-! The host's updates. -/

/-- IRQ_EN, WR_IGN, the schedule and the host's answer are free. -/
theorem State.Legal.hostFields {s : State} (h : s.Legal) (irqEn wrIgn : Bool) (inputs : List Input) (resp : Option BusResponse) :
    State.Legal { s with irqEn := irqEn, wrIgn := wrIgn, inputs := inputs, resp := resp } where
  params := h.params
  din := h.din
  dout := h.dout
  running := fun hb =>
    let run := h.running hb
    run.transfer_port ⟨rfl, rfl, rfl, rfl⟩ rfl rfl run.flags.1 run.flags.2.1 rfl rfl
  idle := fun hb => (h.idle hb).transfer rfl rfl rfl
  oneEnd := h.oneEnd
  unanswered := h.unanswered
  noError := h.noError
  error := h.error
  adapterOnly := h.adapterOnly

theorem State.Legal.respond {s : State} (h : s.Legal) (r : Option BusResponse) : (s.respond r).Legal :=
  h.hostFields s.irqEn s.wrIgn s.inputs r

theorem State.Legal.ignoreWrite {s : State} (h : s.Legal) : s.ignoreWrite.Legal :=
  h.hostFields s.irqEn true s.inputs s.resp

/-- DONE may be cleared (R35). -/
theorem State.Legal.ackDone {s : State} (h : s.Legal) : State.Legal { s with done := false } where
  params := h.params
  din := h.din
  dout := h.dout
  running := fun hb => (h.running hb).transfer_port ⟨rfl, rfl, rfl, rfl⟩ rfl rfl rfl (h.running hb).flags.2.1 rfl rfl
  idle := fun hb => (h.idle hb).transfer rfl rfl rfl
  oneEnd := by simp
  unanswered := h.unanswered
  noError := h.noError
  error := h.error
  adapterOnly := h.adapterOnly

/-- The error return (60_exceptions.md R252). -/
theorem State.Legal.ackError {s : State} (h : s.Legal) : s.ackError.Legal where
  params := h.params
  din := h.din
  dout := h.dout
  running := fun hb => (h.running hb).transfer_port ⟨rfl, rfl, rfl, rfl⟩ rfl rfl (h.running hb).flags.1 rfl rfl rfl
  idle := fun hb => (h.idle hb).transfer rfl rfl rfl
  oneEnd := by simp
  unanswered := h.unanswered
  noError := fun _ => ⟨rfl, rfl, rfl⟩
  error := fun he => by simp at he
  adapterOnly := fun _ => rfl

theorem State.Legal.ite {c : Prop} [Decidable c] {s t : State} (hs : s.Legal) (ht : t.Legal) :
    State.Legal (if c then s else t) := by
  split
  · exact hs
  · exact ht

theorem State.Legal.writeStatus {s : State} (h : s.Legal) (d : Word) : (s.writeStatus d).Legal :=
  have h1 : State.Legal (if d.getLsbD 1 then { s with done := false } else s) := h.ackDone.ite h
  have h2 := State.Legal.ite (c := d.getLsbD 2) h1.ackError h1
  (h2.hostFields _ false _ _).ite h2

/-- While idle the operands and DIN are the host's to change. -/
theorem State.Legal.operands {s : State} (h : s.Legal) (hb : s.busy = false) (o : Operands) {m : Memory}
    (hm : m.within s.params.dbufBytes) : State.Legal { s with ops := o, din := m } where
  params := h.params
  din := hm
  dout := h.dout
  running := fun hb' => by simp [hb] at hb'
  idle := fun _ => (h.idle hb).transfer rfl rfl rfl
  oneEnd := h.oneEnd
  unanswered := h.unanswered
  noError := h.noError
  error := h.error
  adapterOnly := h.adapterOnly

/-- A write that is ignored while busy (R139). -/
theorem State.Legal.unlessBusy {s t : State} (h : s.Legal) (ht : s.busy = false → t.Legal) : (s.unlessBusy t).Legal := by
  cases hb : s.busy with
  | true => simpa [State.unlessBusy, hb] using h.ignoreWrite
  | false => simpa [State.unlessBusy, hb] using ht hb

/-- The registers of R31 outside the buffers are no DIN words. -/
theorem registerMap_lookup_ne_din (off k : Nat) : registerMap.lookup off ≠ some (.din k) := by
  intro h
  obtain ⟨l, r, hmap, -⟩ := List.lookup_eq_some_iff.mp h
  have hmem : (off, Target.din k) ∈ registerMap := hmap ▸ List.mem_append_right l (List.mem_cons_self ..)
  simp [registerMap] at hmem

/-- A DIN word that the register map names lies in the buffer (20_memory.md R72). -/
theorem accessTarget_din_bound {p : Params} {off k : Nat} {width : AccessWidth} (hp : paramsLegal p)
    (h : accessTarget p off width = some (.din k)) : k + 4 ≤ p.dbufBytes := by
  unfold accessTarget at h
  split at h
  · rename_i hacc
    unfold targetAt at h
    obtain ⟨hmod, -⟩ := hp
    split at h
    · simp only [Option.some.injEq, Target.din.injEq] at h
      omega
    · split at h
      · simp at h
      · exact absurd h (registerMap_lookup_ne_din off k)
  · cases h

/-- A write of a mapped register. -/
theorem State.Legal.writeTarget {s : State} (h : s.Legal) {off : Nat} {width : AccessWidth} {t : Target}
    (ht : accessTarget s.params off width = some t) (d : Word) : (s.writeTarget t d).Legal := by
  cases t with
  | id | param | cmd | errinfo | res | dout => exact h
  | ctrl => exact h.hostFields (d.getLsbD 0) s.wrIgn s.inputs s.resp
  | status => exact h.writeStatus d
  | len | kIn | ksn | reg => exact h.unlessBusy fun hb => h.operands hb _ h.din
  | din k =>
    exact h.unlessBusy fun hb =>
      h.operands hb s.ops (Memory.within_write32 h.din (accessTarget_din_bound h.params ht) d)

/-- A bus access that is no CMD write. -/
theorem State.Legal.busAccess {s : State} (h : s.Legal) (a : Access) : (s.busAccess a).Legal := by
  unfold State.busAccess
  split
  · exact h.respond _
  · split
    · exact h.respond _
    · rename_i ht
      split
      · exact h.respond _
      · exact (h.writeTarget ht _).respond _

theorem State.Legal.pollStatus {s : State} (h : s.Legal) : s.pollStatus.Legal :=
  (h.hostFields s.irqEn s.wrIgn _ _).ite (h.respond _)

/-- A pending request may go unanswered (R147). -/
theorem State.Legal.leaveUnanswered {s : State} (h : s.Legal) : s.leaveUnanswered.Legal := by
  cases hq : s.pend with
  | none => rwa [State.leaveUnanswered_none hq]
  | some q =>
    rw [State.leaveUnanswered_pending hq]
    exact {
      params := h.params
      din := h.din
      dout := h.dout
      running := fun hb =>
        let run := h.running hb
        run.transfer_port ⟨rfl, rfl, rfl, rfl⟩ rfl rfl run.flags.1 run.flags.2.1 rfl rfl
      idle := fun hb => (h.idle hb).transfer rfl rfl rfl
      oneEnd := h.oneEnd
      unanswered := fun _ => by simp [hq]
      noError := h.noError
      error := h.error
      adapterOnly := h.adapterOnly }

/-! Reset and the completions. -/

/-- The reset state is legal under all legal parameters, whatever the host does next and last got back. -/
theorem State.reset_legal {p : Params} (hp : paramsLegal p) (inputs : List Input) (resp : Option BusResponse) :
    State.Legal { State.reset with params := p, inputs := inputs, resp := resp } where
  params := hp
  din := Memory.within_nil _
  dout := Memory.within_nil _
  running := fun hb => nomatch hb
  idle := fun _ => ⟨rfl, rfl, rfl⟩
  oneEnd := by simp [State.reset]
  unanswered := fun hs => nomatch hs
  noError := fun _ => ⟨rfl, rfl, rfl⟩
  error := fun he => nomatch he
  adapterOnly := fun _ => rfl

theorem State.Legal.blockReset {s : State} (h : s.Legal) : s.blockReset.Legal :=
  State.reset_legal h.params s.inputs s.resp

/-- An error completion, at issue or for a failed request (R137). -/
theorem State.raise_legal {s : State} (hparams : paramsLegal s.params) (hdin : s.din.within s.params.dbufBytes)
    (hpend : s.pend = none) (hsilent : s.silent = false) (hdone : s.done = false) {e : ErrCode} (he : e ≠ .none)
    (failOp : BitVec 8) {x : FailCode} (hx : e ≠ .adapterFailure → x = 0) : (s.raise e failOp x).Legal where
  params := hparams
  din := hdin
  dout := Memory.within_nil _
  running := fun hb => nomatch hb
  idle := fun _ => ⟨rfl, hpend, rfl⟩
  oneEnd := by simp [hdone]
  unanswered := fun hs => by simp [hsilent] at hs
  noError := fun h => nomatch h
  error := fun _ => ⟨he, rfl, rfl⟩
  adapterOnly := hx

/-- A normal completion (R136). -/
theorem State.complete_legal {s : State} (hparams : paramsLegal s.params) (hdin : s.din.within s.params.dbufBytes)
    (hdout : s.dout.within s.params.dbufBytes) (hpend : s.pend = none) (hsilent : s.silent = false) (herr : s.err = false)
    (hno : s.errCode = .none ∧ s.failOp = 0 ∧ s.adapterCode = 0) (v : Option Key) : (s.complete v).Legal where
  params := hparams
  din := hdin
  dout := hdout
  running := fun hb => nomatch hb
  idle := fun _ => ⟨rfl, hpend, rfl⟩
  oneEnd := by simp [herr]
  unanswered := fun hs => by simp [hsilent] at hs
  noError := fun _ => hno
  error := fun h => by simp [herr] at h
  adapterOnly := fun _ => hno.2.2

/-! Issue (R131 to R134; 44_control.md R230). -/

/-- The checks of issue give one of the errors, never NONE. -/
theorem State.issueError_ne_none {s : State} {n : Needs} {e : ErrCode} (h : s.issueError n = some e) : e ≠ .none := by
  rintro rfl
  unfold State.issueError State.lenError at h
  repeat' split at h
  all_goals simp at h

/-- A message command passes the checks only with a legal LEN. -/
theorem State.lenLegal_of_issueError {s : State} (h : s.issueError Needs.message = none) : s.lenLegal := by
  have hlen : s.lenError = none := by
    unfold State.issueError at h
    repeat' split at h
    all_goals simp_all [Needs.message]
  unfold State.lenError at hlen
  repeat' split at hlen
  all_goals simp at hlen
  unfold State.lenLegal
  omega

/-- Only ENCRYPT and DECRYPT have the operation codes of the message commands, and they need LEN. -/
theorem commandNeeds_of_message {i : Instr} (h : i.opcode ∈ [0x08#8, 0x09#8]) : commandNeeds i = Needs.message := by
  cases i with
  | encrypt | decrypt => rfl
  | _ => simp [Instr.opcode] at h

section
variable {s : State} (h : s.Legal) (hb : s.busy = false)
include h hb

/-- An error found at issue. -/
theorem State.Legal.issueFails {e : ErrCode} (he : e ≠ .none) (failOp : BitVec 8) :
    (s.clearOnIssue.raise e failOp 0).Legal :=
  have hpend := (h.idle hb).noRequest
  State.raise_legal (s := s.clearOnIssue) h.params h.din hpend (h.silent_eq_false hpend) rfl he failOp fun _ => rfl

/-- The start of a command in working registers that its phase allows. -/
theorem State.Legal.starts {w : Working} (hphase : State.phaseLegal { s.clearOnIssue with work := w })
    (hlen : w.opc ∈ [0x08#8, 0x09#8] → s.lenLegal) : State.Legal { s.clearOnIssue with busy := true, work := w } :=
  have hpend := (h.idle hb).noRequest
  State.legal_of_running h.params h.din (Memory.within_nil _) rfl
    { phase := hphase
      port := State.portLegal_at_start hpend (h.idle hb).noAnswers
      flags := ⟨rfl, rfl, rfl⟩
      noOutput := fun _ => rfl
      length := hlen }
    (fun hs => by simp [h.silent_eq_false hpend] at hs) ⟨rfl, rfl, rfl⟩

/-- CLEAR. -/
theorem State.Legal.clears : s.clearOnIssue.clearAll.Legal where
  params := h.params
  din := Memory.within_nil _
  dout := Memory.within_nil _
  running := fun hb' => by simp [hb] at hb'
  idle := fun _ => ⟨rfl, (h.idle hb).noRequest, rfl⟩
  oneEnd := by simp
  unanswered := h.unanswered
  noError := fun _ => ⟨rfl, rfl, rfl⟩
  error := fun he => by simp at he
  adapterOnly := fun _ => rfl

/-- An accepted command starts, or CLEAR is done, in a legal state. -/
theorem State.Legal.commandStart {i : Instr} (he : s.issueError (commandNeeds i) = none) :
    (commandStart i s.clearOnIssue).Legal := by
  have hlen : i.opcode ∈ [0x08#8, 0x09#8] → s.lenLegal := fun hop =>
    State.lenLegal_of_issueError (commandNeeds_of_message hop ▸ he)
  cases i with
  | clear => exact h.clears hb
  | createIpek | sessionKey | encrypt | decrypt | generateKey | encryptRegister =>
    exact h.starts hb (by simp [State.phaseLegal, Instr.opcode]) hlen
  | deriveKey | sessionPek | sessionDek =>
    exact h.starts hb (by simp [State.phaseLegal, State.start, Instr.opcode, shiftRegMask]) hlen

end

/-- A CMD write of a legal word. -/
theorem State.Legal.exec {s t : State} (h : s.Legal) {i : Instr} (hs : exec i s = .next t) : t.Legal := by
  obtain ⟨-, hx⟩ | ⟨e, hb, he, hx⟩ | ⟨hb, he, hx⟩ := exec_cases i s
  · obtain rfl : s.ignoreWrite = t := by simpa [hx] using hs
    exact h.ignoreWrite
  · obtain rfl : s.clearOnIssue.raise e i.opcode 0 = t := by simpa [hx] using hs
    exact h.issueFails hb (State.issueError_ne_none he) i.opcode
  · obtain rfl : Machine.commandStart i s.clearOnIssue = t := by simpa [hx] using hs
    exact h.commandStart hb he

/-- A CMD write of any word. -/
theorem State.Legal.issueWord {s t : State} (h : s.Legal) {w : Word} (hs : issueWord w s = .next t) : t.Legal := by
  unfold Machine.issueWord at hs
  split at hs
  · exact h.exec hs
  · cases hb : s.busy with
    | true =>
      obtain rfl : s.ignoreWrite = t := by simpa [issueIllegal_busy hb] using hs
      exact h.ignoreWrite
    | false =>
      rw [issueIllegal_idle hb] at hs
      obtain rfl := by simpa only [Host.Outcome.next.injEq] using hs
      exact h.issueFails hb (by decide) _

/-- One host access. -/
theorem State.Legal.hostAccess {s t : State} (h : s.Legal) {a : Access} (hs : hostAccess a s = .next t) : t.Legal := by
  cases hc : commandWrite s.params a with
  | none =>
    obtain rfl : s.busAccess a = t := by simpa [hostAccess_bus hc] using hs
    exact h.busAccess a
  | some w => exact (h.respond (some .accepted)).issueWord (hostAccess_command hc ▸ hs)

/-! The agents' steps. -/

/-- The adapter's answer to the pending request (R141). -/
theorem State.Legal.adapterStep {s : State} (h : s.Legal) {q : Request} (hq : s.pend = some q) (hsilent : s.silent = false) :
    (s.adapterStep q).Legal := by
  have hb : s.busy = true := by
    cases hb : s.busy with
    | true => rfl
    | false => simp [(h.idle hb).noRequest] at hq
  have run := h.running hb
  obtain ⟨hdone, herr, -⟩ := run.flags
  obtain ⟨r, -, hr⟩ | ⟨x, -, hx⟩ := State.adapterStep_cases s q
  · obtain ⟨k, hk⟩ := ((State.portLegal_iff s).mp run.port).2 q hq
    rw [hr]
    have same : s.SameAction { s with pend := none, answers := s.answers ++ [r] } := ⟨rfl, rfl, rfl, rfl⟩
    have hport : State.portLegal { s with pend := none, answers := s.answers ++ [r] } := by
      refine (State.portLegal_iff _).mpr ⟨?_, fun _ hq' => nomatch hq'⟩
      rw [same.actionShape_eq]
      exact Prog.fits_append hk r
    exact State.legal_of_running h.params h.din h.dout hb (run.transfer same rfl rfl hdone herr hport)
      (fun hs => by simp [hsilent] at hs) (h.noError_of_busy hb)
  · rw [hx]
    exact State.raise_legal (s := { s with pend := none }) h.params h.din rfl hsilent hdone (by decide) _
      fun hne => absurd rfl hne

/-- The engine sends the action's next request. -/
theorem State.Legal.send {s : State} (h : s.Legal) (hb : s.busy = true) {q : Request} {k : Block → Prog StepOutcome}
    (hk : (phaseAction { s with answers := [] }).resume s.answers = .call q k) : (s.send q).Legal := by
  have run := h.running hb
  obtain ⟨hdone, herr, -⟩ := run.flags
  have same : s.SameAction (s.send q) := ⟨rfl, rfl, rfl, rfl⟩
  have hport : (s.send q).portLegal := by
    rw [State.portLegal_iff, same.actionShape_eq]
    refine ⟨((State.portLegal_iff s).mp run.port).1, fun q' hq' => ?_⟩
    obtain rfl : q = q' := Option.some.inj hq'
    exact (Prog.resume_shape_eq_call_iff _ _ _).mpr ⟨k, hk⟩
  exact State.legal_of_running h.params h.din h.dout hb (run.transfer same rfl rfl hdone herr hport)
    (fun _ => by simp) (h.noError_of_busy hb)

/-- A command in progress between two phase actions: legal, busy, with no request and no answer outstanding. -/
structure State.AtAction (s : State) : Prop where
  legal : s.Legal
  busy : s.busy = true
  noRequest : s.pend = none
  noAnswers : s.answers = []

section
variable {s : State} (h : s.AtAction)
include h

theorem State.AtAction.completes (w : Working) {m : Memory} (hm : m.within s.params.dbufBytes) (v : Option Key) :
    (State.complete { s with work := w, dout := m } v).Legal :=
  State.complete_legal (s := { s with work := w, dout := m }) h.legal.params h.legal.din hm h.noRequest (h.legal.silent_eq_false h.noRequest)
    (h.legal.running h.busy).flags.2.1 (h.legal.noError_of_busy h.busy) v

theorem State.AtAction.goesOn {w : Working} {m : Memory} (hm : m.within s.params.dbufBytes) (hopc : w.opc = s.work.opc)
    (hphase : State.phaseLegal { s with work := w, dout := m }) (hout : w.ph ≠ .data → m = []) :
    State.Legal { s with work := w, dout := m } :=
  have run := h.legal.running h.busy
  State.legal_of_running h.legal.params h.legal.din hm h.busy
    { phase := hphase
      port := State.portLegal_at_start h.noRequest h.noAnswers
      flags := run.flags
      noOutput := hout
      length := fun hw => run.length (hopc ▸ hw) }
    h.legal.unanswered (h.legal.noError_of_busy h.busy)

/-- From one phase to the next, DATA excepted, DOUT stays empty. -/
theorem State.AtAction.nextPhase {w : Working} (hph : s.work.ph ≠ .data) (hopc : w.opc = s.work.opc)
    (hphase : State.phaseLegal { s with work := w }) : State.Legal { s with work := w } :=
  h.goesOn h.legal.dout hopc hphase fun _ => (h.legal.running h.busy).noOutput hph

/-- DATA starts at block 0 of an empty DOUT (43_data_cipher.md R212). -/
theorem State.AtAction.dataInit (hph : s.work.ph ≠ .data) {w : Working} (hopc : w.opc = s.work.opc)
    (hmsg : s.work.opc ∈ [0x08#8, 0x09#8]) : (State.dataInit { s with work := w }).Legal := by
  have run := h.legal.running h.busy
  obtain ⟨-, hmin, -⟩ := run.length hmsg
  refine h.nextPhase hph hopc ⟨hopc ▸ hmsg, ?_, fun a _ => ?_⟩
  · show 0 < s.ops.len.toNat / 8
    omega
  · simp [run.noOutput hph]

/-- The end of the walk (41_ipek_walk.md R168; 42_session_variants.md R197). -/
theorem State.AtAction.afterWalk {t : State} (hph : s.work.ph = .walk) (w : WalkRegs)
    (ht : State.afterWalk { s with work := { s.work with kreg := w.kreg, cur := w.cur, sr := w.sr } } = .next t) : t.Legal := by
  have hdata : s.work.ph ≠ .data := by simp [hph]
  have hopc : s.work.opc ∈ [0x02#8, 0x05#8, 0x06#8, 0x07#8, 0x08#8, 0x09#8] := by
    have hphase := (h.legal.running h.busy).phase
    simp only [State.phaseLegal, hph] at hphase
    exact hphase.1
  unfold State.afterWalk at ht
  split at ht
  · obtain rfl := Host.Outcome.next.inj ht
    exact h.completes _ h.legal.dout _
  · rename_i hderive
    split at ht
    · obtain rfl := Host.Outcome.next.inj ht
      unfold State.variantStep
      split
      · rename_i hpin
        dsimp only
        split
        · exact h.completes _ h.legal.dout _
        · rename_i hkey
          refine h.dataInit hdata rfl ?_
          simp_all [Working.pinPath]
      · rename_i hpin
        refine h.nextPhase hdata rfl ?_
        simp only [State.phaseLegal]
        cases hv : s.work.var <;> simp_all [Working.pinPath]
    · cases ht

/-- The end of a DATA step (43_data_cipher.md R213, R214). -/
theorem State.AtAction.dataBlock (hph : s.work.ph = .data) (hbuf : 8 * s.work.bi.toNat + 8 ≤ s.params.dbufBytes)
    (out chain : Block) : (s.dataBlock out chain).Legal := by
  have run := h.legal.running h.busy
  have hphase := run.phase
  simp only [State.phaseLegal, hph] at hphase
  obtain ⟨hopc, hbi, htail⟩ := hphase
  have hnext : (s.work.bi + 1).toNat = s.work.bi.toNat + 1 := by
    have := s.ops.len.isLt
    rw [BitVec.toNat_add, show (1 : BitVec 16).toNat = 1 from rfl]
    omega
  have hm := Memory.within_write64 h.legal.dout hbuf out
  unfold State.dataBlock
  dsimp only
  split
  · exact h.completes _ hm none
  · rename_i hlast
    refine h.goesOn hm rfl ?_ fun hne => absurd hph hne
    simp only [State.phaseLegal, hph]
    refine ⟨hopc, by omega, fun a ha => ?_⟩
    rw [Memory.read_write64_outside h.legal.dout.1 _ _ (by omega)]
    exact htail a (by omega)

/-- Every end of a phase action (R135) is a legal state. -/
theorem State.AtAction.yields {t : State} (hy : (phaseAction s).Yields (.next t)) : t.Legal := by
  have hphase := (h.legal.running h.busy).phase
  unfold phaseAction at hy
  unfold State.phaseLegal at hphase
  cases hph : s.work.ph with
  | idle => simp [hph] at hphase
  | ipekL | dekL =>
    simp only [hph] at hphase hy
    obtain ⟨c, hc⟩ := hy
    obtain rfl := Host.Outcome.next.inj hc
    exact h.nextPhase (by simp [hph]) rfl hphase
  | ipekR =>
    simp only [hph] at hphase hy
    obtain ⟨c, hc⟩ := hy
    dsimp only at hc
    split at hc
    · obtain rfl := Host.Outcome.next.inj hc
      exact h.completes _ h.legal.dout _
    · obtain rfl := Host.Outcome.next.inj hc
      refine h.nextPhase (by simp [hph]) rfl ?_
      simp_all [State.phaseLegal, shiftRegMask]
  | walk =>
    simp only [hph] at hphase hy
    obtain ⟨w, -, hw⟩ := (Prog.yields_bind _ _ _).mp hy
    replace hw := (Prog.yields_ret _ _).mp hw
    split at hw
    · exact h.afterWalk hph w hw.symm
    · rename_i hsr
      obtain rfl := Host.Outcome.next.inj hw
      refine h.nextPhase (by simp [hph]) rfl ?_
      simp only [State.phaseLegal, hph]
      exact ⟨hphase.1, hsr⟩
  | dekR =>
    simp only [hph] at hphase hy
    obtain ⟨c, hc⟩ := hy
    dsimp only at hc
    split at hc
    · obtain rfl := Host.Outcome.next.inj hc
      exact h.completes _ h.legal.dout _
    · obtain rfl := Host.Outcome.next.inj hc
      exact h.dataInit (by simp [hph]) rfl (by simp_all)
  | data =>
    simp only [hph] at hphase hy
    unfold phaseData at hy
    split at hy
    · rename_i hbuf
      dsimp only at hy
      split at hy
      · obtain ⟨c, hc⟩ := hy
        obtain rfl := Host.Outcome.next.inj hc
        exact h.dataBlock hph hbuf c c
      · split at hy
        · obtain ⟨r, hr⟩ := hy
          obtain rfl := Host.Outcome.next.inj hr
          exact h.dataBlock hph hbuf _ _
        · cases hy
    · cases hy
  | gen | ereg =>
    simp only [hph] at hy
    obtain ⟨k, -, hk⟩ := (Prog.yields_bind _ _ _).mp hy
    obtain rfl := Host.Outcome.next.inj hk
    exact h.completes s.work h.legal.dout _

end

/-- A phase action may be run again from its start: the state it then starts in is legal. -/
theorem State.Legal.atAction {s : State} (h : s.Legal) (hb : s.busy = true) (hpend : s.pend = none) :
    State.AtAction { s with answers := [] } where
  legal :=
    have run := h.running hb
    State.legal_of_running h.params h.din h.dout hb
      (run.transfer ⟨rfl, rfl, rfl, rfl⟩ rfl rfl run.flags.1 run.flags.2.1 (State.portLegal_at_start hpend rfl))
      h.unanswered (h.noError_of_busy hb)
  busy := hb
  noRequest := hpend
  noAnswers := rfl

/-- A step of the engine. -/
theorem State.Legal.engineStep {s t : State} (h : s.Legal) (hb : s.busy = true) (hpend : s.pend = none)
    (hs : engineStep s = .next t) : t.Legal := by
  obtain ⟨q, k, hk, hx⟩ | ⟨o, ho, hx⟩ := engineStep_cases s
  · obtain rfl : s.send q = t := by simpa [hx] using hs
    exact h.send hb hk
  · obtain rfl : o = .next t := hx.symm.trans hs
    exact (h.atAction hb hpend).yields (Prog.yields_of_resume ho)

/-- A step of the agent that is enabled; with none, what `stuck` answers. -/
theorem State.Legal.agentStep {s t : State} (h : s.Legal) {stuck : StepOutcome} (hstuck : stuck = .next t → t.Legal)
    (hs : agentStep stuck s = .next t) : t.Legal := by
  cases hq : s.pend with
  | some q =>
    cases hsil : s.silent with
    | true => exact hstuck (agentStep_silent hq hsil stuck ▸ hs)
    | false =>
      obtain rfl : s.adapterStep q = t := by simpa [agentStep_pending hq hsil] using hs
      exact h.adapterStep hq hsil
  | none =>
    cases hb : s.busy with
    | true => exact h.engineStep hb hq (agentStep_busy hq hb stuck ▸ hs)
    | false =>
      obtain rfl : s = t := by simpa [agentStep_idle hq hb] using hs
      exact h

/-- An input of the schedule. -/
theorem State.Legal.deliver {s t : State} (h : s.Legal) {x : Input} (hs : deliver x s = .next t) : t.Legal := by
  cases x with
  | access a => exact h.hostAccess hs
  | tick => exact h.agentStep (fun ht => Host.Outcome.next.inj ht ▸ h) hs
  | poll => exact Host.Outcome.next.inj hs ▸ h.pollStatus
  | noAnswer => exact Host.Outcome.next.inj hs ▸ h.leaveUnanswered
  | lateAnswer r => exact Host.Outcome.next.inj hs ▸ h
  | reset => exact Host.Outcome.next.inj hs ▸ h.blockReset

/-- Settles O38: the next input keeps the legal states, and so does the enabled agent when no input is left. -/
theorem legalStatesAreKept : Obligations.LegalStatesAreKept := by
  intro s t h hs
  cases hin : s.inputs with
  | nil => exact h.agentStep (stuck := .fault .hang) (fun ht => nomatch ht) ((step_no_input hin).symm.trans hs)
  | cons x rest =>
    rw [step_input hin] at hs
    exact (h.hostFields s.irqEn s.wrIgn rest s.resp).deliver hs

/-- Settles O37: reset is the reset state of legal parameters. -/
theorem resetIsLegal : Obligations.ResetIsLegal :=
  State.reset_legal (p := Params.reference) (by unfold paramsLegal; decide) [] none

end Sys2Proof.Machine
end

