-- ==== Sys2Proof/Proofs/Window.lean ====
section
/-! PROOFS. The register window (10_state.md R31 to R42; 20_memory.md R72 to R79): what stands at an offset, what a 32-bit access of a mapped register
does, and from it the register reads, the register writes while idle, the interrupt line, and the values after reset. -/

namespace Sys2Proof.Machine

/-! The register map. -/

/-- Below the buffers the map is the list of R31. -/
theorem targetAt_register (n : Nat) {off : Nat} (h : off < 0x800) : targetAt n off = registerMap.lookup off := by
  rw [targetAt, if_neg (by omega), if_neg (by omega)]

theorem targetAt_din {n k : Nat} (h : k < n) : targetAt n (0x800 + k) = some (.din k) := by
  rw [targetAt, if_pos (by omega), Nat.add_sub_cancel_left]

theorem targetAt_dout {n k : Nat} (hn : n ≤ 0x400) (h : k < n) : targetAt n (0xC00 + k) = some (.dout k) := by
  rw [targetAt, if_neg (by omega), if_pos (by omega), Nat.add_sub_cancel_left]

/-- An offset of the window reached by BASE + OFF. -/
theorem windowOffset_base (p : Params) {off : Nat} (h : off < 4096) : windowOffset p (p.base + off) = some off := by
  rw [windowOffset, if_pos (by omega), Nat.add_sub_cancel_left]

/-- An aligned 32-bit access reaches what stands at its offset (20_memory.md R73, R74). -/
theorem accessTarget_aligned (p : Params) {off : Nat} (h : off % 4 = 0) :
    accessTarget p off .w32 = targetAt p.dbufBytes off := by
  rw [accessTarget, if_pos ⟨rfl, h⟩]

/-! One 32-bit access of a mapped register. -/

section
variable (s : State) {off : Nat} {t : Target}

/-- A read answers the register's word and changes nothing else (R79). -/
theorem State.after_hostRd (hwin : off < 4096) (halign : off % 4 = 0) (ht : targetAt s.params.dbufBytes off = some t) :
    s.after (hostRd s.params off) = .next (s.respond (some (.word (s.readTarget t)))) := by
  change Host.Outcome.next (s.busAccess (.read (s.params.base + off) .w32)) = _
  simp [State.busAccess, Access.addr, Access.width, windowOffset_base s.params hwin, accessTarget_aligned s.params halign, ht]

/-- A write of any register but CMD is accepted with the register's effect (R79). -/
theorem State.after_hostWr (hwin : off < 4096) (halign : off % 4 = 0) (ht : targetAt s.params.dbufBytes off = some t)
    (hcmd : t ≠ .cmd) (d : Word) :
    s.after (hostWr s.params off d) = .next ((s.writeTarget t d).respond (some .accepted)) := by
  have hcw : commandWrite s.params (.write (s.params.base + off) .w32 d) = none := by
    simp [commandWrite, windowOffset_base s.params hwin, accessTarget_aligned s.params halign, ht, hcmd]
  change hostAccess (.write (s.params.base + off) .w32 d) s = _
  rw [hostAccess_bus hcw]
  simp [State.busAccess, Access.addr, Access.width, windowOffset_base s.params hwin, accessTarget_aligned s.params halign, ht]

/-- The read of a register of R31's list. -/
theorem State.after_hostRd_register (hoff : off < 0x800) (halign : off % 4 = 0) (ht : registerMap.lookup off = some t) :
    s.after (hostRd s.params off) = .next (s.respond (some (.word (s.readTarget t)))) :=
  s.after_hostRd (by omega) halign ((targetAt_register _ hoff).trans ht)

/-- The write of a register of R31's list. -/
theorem State.after_hostWr_register (hoff : off < 0x800) (halign : off % 4 = 0) (ht : registerMap.lookup off = some t)
    (hcmd : t ≠ .cmd) (d : Word) :
    s.after (hostWr s.params off d) = .next ((s.writeTarget t d).respond (some .accepted)) :=
  s.after_hostWr (by omega) halign ((targetAt_register _ hoff).trans ht) hcmd d

end

/-! The words and the effects of the registers. -/

theorem ofBool_eq_ite (b : Bool) : BitVec.ofBool b = if b then 1#1 else 0#1 := by
  cases b <;> rfl

/-- A 16-bit field in the low half of a word, reserved bits 0. -/
theorem halfWord_setWidth (x : BitVec 16) : x.setWidth 32 = 0#16 ++ x := BitVec.setWidth_eq_append (by decide)

/-- Settles O48: R31's map sends each offset to its register, whose word is the rule's. -/
theorem registerReads : Obligations.RegisterReads := by
  intro s hdbuf
  dsimp only
  have reads {off : Nat} (t : Target) {w : Word} (hoff : off < 0x800) (halign : off % 4 = 0)
      (ht : registerMap.lookup off = some t) (hw : s.readTarget t = w) :
      s.after (hostRd s.params off) = .next { s with resp := some (.word w) } :=
    hw ▸ s.after_hostRd_register hoff halign ht
  refine ⟨reads .id (by decide) rfl rfl rfl, reads .param (by decide) rfl rfl rfl, reads .ctrl (by decide) rfl rfl ?ctrl,
    reads .status (by decide) rfl rfl ?status, reads .len (by decide) rfl rfl ?len, reads .errinfo (by decide) rfl rfl rfl,
    reads (.ksn 0) (by decide) rfl rfl ?ksn0, reads (.ksn 1) (by decide) rfl rfl rfl, reads (.ksn 2) (by decide) rfl rfl rfl,
    reads (.reg 0) (by decide) rfl rfl rfl, reads (.reg 1) (by decide) rfl rfl rfl,
    reads (.res 0) (by decide) rfl rfl rfl, reads (.res 1) (by decide) rfl rfl rfl,
    reads (.res 2) (by decide) rfl rfl rfl, reads (.res 3) (by decide) rfl rfl rfl, ?buffers⟩
  case ctrl => rw [State.readTarget, State.ctrlWord, ofBool_eq_ite]
  case status =>
    simp only [State.readTarget, State.statusWord, ofBool_eq_ite]
    rfl
  case len => exact halfWord_setWidth s.ops.len
  case ksn0 => exact halfWord_setWidth _
  case buffers =>
    intro k halign hk
    exact ⟨s.after_hostRd (by omega) (by omega) (targetAt_din hk), s.after_hostRd (by omega) (by omega) (targetAt_dout hdbuf hk)⟩

/-- A STATUS write field by field (10_state.md R35). -/
theorem State.writeStatus_eq (s : State) (d : Word) :
    s.writeStatus d = { s with
      done := s.done && !d.getLsbD 1, err := s.err && !d.getLsbD 2, wrIgn := s.wrIgn && !d.getLsbD 3
      errCode := if d.getLsbD 2 then .none else s.errCode, failOp := if d.getLsbD 2 then 0 else s.failOp
      adapterCode := if d.getLsbD 2 then 0 else s.adapterCode } := by
  rw [State.writeStatus]
  generalize d.getLsbD 1 = ackDone, d.getLsbD 2 = ackErr, d.getLsbD 3 = ackWrIgn
  cases ackDone <;> cases ackErr <;> cases ackWrIgn <;> simp [State.ackError]

/-- A write that is not ignored takes its effect (R139). -/
theorem State.unlessBusy_idle {s : State} (hb : s.busy = false) (t : State) : s.unlessBusy t = t := by
  simp [State.unlessBusy, hb]

/-- Settles O50: R31's map sends each offset to its register, and the write has the register's effect. -/
theorem registerWritesWhileIdle : Obligations.RegisterWritesWhileIdle := by
  intro s d hb hdbuf
  dsimp only
  have writes {off : Nat} (t : Target) {u : State} (hoff : off < 0x800) (halign : off % 4 = 0)
      (ht : registerMap.lookup off = some t) (hcmd : t ≠ .cmd) (hu : s.writeTarget t d = u) :
      s.after (hostWr s.params off d) = .next { u with resp := some .accepted } :=
    hu ▸ s.after_hostWr_register hoff halign ht hcmd d
  have idle := State.unlessBusy_idle hb
  refine ⟨writes .ctrl (by decide) rfl rfl (by decide) rfl,
    writes .status (by decide) rfl rfl (by decide) (s.writeStatus_eq d),
    writes .len (by decide) rfl rfl (by decide) (idle _),
    writes (.kIn 0) (by decide) rfl rfl (by decide) (idle _), writes (.kIn 1) (by decide) rfl rfl (by decide) (idle _),
    writes (.kIn 2) (by decide) rfl rfl (by decide) (idle _), writes (.kIn 3) (by decide) rfl rfl (by decide) (idle _),
    writes (.ksn 0) (by decide) rfl rfl (by decide) (idle _), writes (.ksn 1) (by decide) rfl rfl (by decide) (idle _),
    writes (.ksn 2) (by decide) rfl rfl (by decide) (idle _),
    writes (.reg 0) (by decide) rfl rfl (by decide) (idle _), writes (.reg 1) (by decide) rfl rfl (by decide) (idle _), ?_⟩
  intro off halign hoff
  have hw := s.after_hostWr (by omega) (by omega) (targetAt_din hoff) (fun h => nomatch h) d
  rwa [State.writeTarget, idle] at hw

/-! The interrupt line. -/

theorem State.irq_eq_true_iff (s : State) : s.irq = true ↔ s.irqEn = true ∧ (s.done = true ∨ s.err = true) := by
  simp [State.irq]

/-- With neither result flag the line is low. -/
theorem State.irq_eq_false {s : State} (hd : s.done = false) (he : s.err = false) : s.irq = false := by
  simp [State.irq, hd, he]

/-- The start of a command writes neither result flag; CLEAR has no start. -/
theorem commandStart_flags {i : Instr} (h : i ≠ .clear) (s : State) :
    (commandStart i s).done = s.done ∧ (commandStart i s).err = s.err := by
  cases i with
  | clear => exact absurd rfl h
  | _ => exact ⟨rfl, rfl⟩

/-- Settles O55: each of the three accesses and the issue leave IRQ_EN or both result flags 0. -/
theorem interruptLine : Obligations.InterruptLine := by
  intro s
  refine ⟨s.irq_eq_true_iff, ⟨_, s.after_hostWr_register (t := .status) (by decide) rfl rfl (by decide) _, ?_⟩,
    ⟨_, s.after_hostWr_register (t := .ctrl) (by decide) rfl rfl (by decide) _, ?_, rfl, rfl⟩, ?_⟩
  · rw [State.writeTarget, State.writeStatus_eq]
    exact State.irq_eq_false (Bool.and_false _) (Bool.and_false _)
  · simp [State.irq, State.writeTarget]
  · intro i hclear ⟨hb, haccept⟩
    obtain ⟨hdone, herr⟩ := commandStart_flags hclear s.clearOnIssue
    exact ⟨_, exec_eq_issue i s ▸ issueCommand_go hb haccept i _, State.irq_eq_false hdone herr⟩

/-- Settles O12: each piece of state and each mask by the definition of the reset state and of the masks. -/
theorem resetValues : Obligations.ResetValues := by
  have hbuffers : ∀ a, State.reset.din.read a = 0 ∧ State.reset.dout.read a = 0 := fun _ => ⟨rfl, rfl⟩
  unfold Obligations.ResetValues
  dsimp only
  rw [iff_true_intro hbuffers]
  decide

end Sys2Proof.Machine
end

/-! PROOFS. Host accesses and the buffers (20_memory.md). First what an access reaches and does: the registers' offsets, writes made twice, the bus,
and the statements about the window. Then what a step of engine or adapter can do from any state, and from it the frame of that step and the canonical
form of the buffers. -/

namespace Sys2Proof.Machine

/-! The offsets of the registers. -/

/-- A target that an access reaches is a DIN word, a DOUT word, or a register at its offset in the map of R31. -/
theorem accessTarget_eq_some {p : Params} {off : Nat} {width : AccessWidth} {t : Target}
    (h : accessTarget p off width = some t) :
    width = .w32 ∧ ((∃ k, t = .din k) ∨ (∃ k, t = .dout k) ∨ (off, t) ∈ registerMap) := by
  unfold accessTarget targetAt at h
  split at h
  · rename_i hacc
    refine ⟨hacc.1, ?_⟩
    split at h
    · exact .inl ⟨_, (Option.some.inj h).symm⟩
    · split at h
      · exact .inr (.inl ⟨_, (Option.some.inj h).symm⟩)
      · obtain ⟨l, r, hmap, -⟩ := List.lookup_eq_some_iff.mp h
        exact .inr (.inr (hmap ▸ List.mem_append_right l (List.mem_cons_self ..)))
  · cases h

/-- CMD is reached at its offset only, by a 32-bit access. -/
theorem accessTarget_cmd {p : Params} {off : Nat} {width : AccessWidth} (h : accessTarget p off width = some .cmd) :
    width = .w32 ∧ off = 0x010 := by
  simpa [registerMap] using accessTarget_eq_some h

/-- STATUS is reached at its offset only, by a 32-bit access. -/
theorem accessTarget_status {p : Params} {off : Nat} {width : AccessWidth} (h : accessTarget p off width = some .status) :
    width = .w32 ∧ off = 0x00C := by
  simpa [registerMap] using accessTarget_eq_some h

/-- The bus address of an offset. -/
theorem addr_of_windowOffset {p : Params} {addr off : Nat} (h : windowOffset p addr = some off) : addr = p.base + off := by
  unfold windowOffset at h
  split at h
  · cases h; omega
  · cases h

/-- The CMD writes are the host's 32-bit writes at offset 0x010 (10_state.md R36). -/
theorem commandWrite_eq_some {p : Params} {a : Access} {w : Word} (h : commandWrite p a = some w) :
    Input.access a = hostWr p 0x010 w := by
  cases a with
  | read addr width => cases h
  | write addr width d =>
    simp only [commandWrite] at h
    split at h
    · cases h
    · rename_i off hoff
      split at h
      · rename_i ht
        obtain ⟨rfl, rfl⟩ := accessTarget_cmd ht
        obtain rfl := addr_of_windowOffset hoff
        cases h
        rfl
      · cases h

/-! A write made twice is a write made once (20_memory.md R79): the operands, DIN, STATUS, and with them every register. -/

theorem setKeyWord_setKeyWord (k : Key) (j : Fin 4) (d : Word) : setKeyWord (setKeyWord k j d) j d = setKeyWord k j d := by
  ext n hn
  fin_cases j <;> grind [setKeyWord]

theorem setKsnWord_setKsnWord (k : Ksn) (j : Fin 3) (d : Word) : setKsnWord (setKsnWord k j d) j d = setKsnWord k j d := by
  ext n hn
  fin_cases j <;> grind [setKsnWord]

theorem setRegWord_setRegWord (r : Block) (j : Fin 2) (d : Word) : setRegWord (setRegWord r j d) j d = setRegWord r j d := by
  ext n hn
  fin_cases j <;> grind [setRegWord]

@[simp] theorem setMaskBit_setMaskBit {n : Nat} (m : BitVec n) (j : Nat) : setMaskBit (setMaskBit m j) j = setMaskBit m j := by
  simp [setMaskBit, BitVec.or_assoc]

theorem Operands.writeKIn_writeKIn (o : Operands) (j : Fin 4) (d : Word) : (o.writeKIn j d).writeKIn j d = o.writeKIn j d := by
  simp [Operands.writeKIn, setKeyWord_setKeyWord]

theorem Operands.writeKsn_writeKsn (o : Operands) (j : Fin 3) (d : Word) : (o.writeKsn j d).writeKsn j d = o.writeKsn j d := by
  simp [Operands.writeKsn, setKsnWord_setKsnWord]

theorem Operands.writeReg_writeReg (o : Operands) (j : Fin 2) (d : Word) : (o.writeReg j d).writeReg j d = o.writeReg j d := by
  simp [Operands.writeReg, setRegWord_setRegWord]

/-- The same word written again changes no byte, so it changes nothing. -/
theorem Memory.write32_write32 {m : Memory} (h : m.wf = true) (off : Nat) (v : Word) :
    (m.write32 off v).write32 off v = m.write32 off v := by
  have h' := Memory.wf_write32 h off v
  refine Memory.eq_of_read_eq (Memory.wf_write32 h' off v) h' fun a => ?_
  simp only [Memory.read_write32 h', Memory.read_write32 h]
  grind

/-- A write that is idempotent while idle is idempotent; while busy it only sets WR_IGN, once (R139). -/
theorem State.unlessBusy_twice {s : State} {f : State → State} (hbusy : (f s).busy = s.busy) (hf : f (f s) = f s) :
    (s.unlessBusy (f s)).unlessBusy (f (s.unlessBusy (f s))) = s.unlessBusy (f s) := by
  cases hb : s.busy with
  | true => simp [State.unlessBusy, hb, State.ignoreWrite]
  | false => simp [State.unlessBusy, hb, hbusy, hf]

theorem State.writeStatus_writeStatus (s : State) (d : Word) : (s.writeStatus d).writeStatus d = s.writeStatus d := by
  rw [State.writeStatus_eq, State.writeStatus_eq]
  cases d.getLsbD 2 <;> simp

/-- Writing a register twice is writing it once (R79). -/
theorem State.writeTarget_writeTarget {s : State} (h : s.din.wf = true) (t : Target) (d : Word) :
    (s.writeTarget t d).writeTarget t d = s.writeTarget t d := by
  have operand (f : Operands → Operands) (hf : f (f s.ops) = f s.ops) :=
    State.unlessBusy_twice (s := s) (f := fun u => { u with ops := f u.ops }) rfl (by simp only [hf])
  cases t with
  | id | param | cmd | errinfo | res | dout | ctrl => rfl
  | status => exact s.writeStatus_writeStatus d
  | len => exact operand (·.writeLen d) rfl
  | kIn j => exact operand (·.writeKIn j d) (s.ops.writeKIn_writeKIn j d)
  | ksn j => exact operand (·.writeKsn j d) (s.ops.writeKsn_writeKsn j d)
  | reg j => exact operand (·.writeReg j d) (s.ops.writeReg_writeReg j d)
  | din k =>
    exact State.unlessBusy_twice (f := fun u => { u with din := u.din.write32 k d }) rfl
      (by simp only [Memory.write32_write32 h])

theorem State.unlessBusy_respond {s t u : State} {r : Option BusResponse} (h : u = t.respond r) :
    (s.respond r).unlessBusy u = (s.unlessBusy t).respond r := by
  unfold State.unlessBusy
  split <;> simp_all [State.ignoreWrite, State.respond]

/-- A write has the same effect whatever the host got back before it. -/
theorem State.writeTarget_respond (s : State) (r : Option BusResponse) (t : Target) (d : Word) :
    (s.respond r).writeTarget t d = (s.writeTarget t d).respond r := by
  cases t with
  | id | param | cmd | errinfo | res | dout | ctrl => rfl
  | status => simp only [State.writeTarget, State.writeStatus_eq, State.respond]
  | len | kIn | ksn | reg | din => exact State.unlessBusy_respond rfl

/-! What the bus does with an access that is no CMD write (20_memory.md R73 to R79, R83, R84). -/

theorem commandWrite_outside {p : Params} {a : Access} (h : windowOffset p a.addr = none) : commandWrite p a = none := by
  cases a with
  | read => rfl
  | write =>
    rw [Access.addr] at h
    simp [commandWrite, h]

theorem commandWrite_no_target {p : Params} {a : Access} {off : Nat} (h : windowOffset p a.addr = some off)
    (ht : accessTarget p off a.width = none) : commandWrite p a = none := by
  cases a with
  | read => rfl
  | write =>
    rw [Access.addr] at h
    rw [Access.width] at ht
    simp [commandWrite, h, ht]

section
variable {s : State} {a : Access}

theorem State.after_access_bus (h : commandWrite s.params a = none) : s.after (.access a) = .next (s.busAccess a) :=
  hostAccess_bus (s := s) h

/-- An access outside the window gets no answer (R83, R84). -/
theorem State.busAccess_outside (h : windowOffset s.params a.addr = none) : s.busAccess a = s.respond none := by
  simp [State.busAccess, h]

/-- An access in the window that reaches no register gets a bus error (R73 to R76). -/
theorem State.busAccess_error {off : Nat} (h : windowOffset s.params a.addr = some off)
    (ht : accessTarget s.params off a.width = none) : s.busAccess a = s.respond (some .busError) := by
  simp [State.busAccess, h, ht]

section
variable {addr off : Nat} {width : AccessWidth} {t : Target} (h : windowOffset s.params addr = some off)
  (ht : accessTarget s.params off width = some t)
include h ht

theorem State.busAccess_read : s.busAccess (.read addr width) = s.respond (some (.word (s.readTarget t))) := by
  simp [State.busAccess, Access.addr, Access.width, h, ht]

theorem State.busAccess_write (d : Word) :
    s.busAccess (.write addr width d) = (s.writeTarget t d).respond (some .accepted) := by
  simp [State.busAccess, Access.addr, Access.width, h, ht]

end

/-- All that an access other than a CMD write can do: nothing but the host's answer, or the effect of a register write. -/
theorem State.busAccess_cases (s : State) (a : Access) :
    (∃ r, s.busAccess a = s.respond r) ∨
    ∃ off width t d, a = .write (s.params.base + off) width d ∧ accessTarget s.params off width = some t ∧
      s.busAccess a = (s.writeTarget t d).respond (some .accepted) := by
  cases hwin : windowOffset s.params a.addr with
  | none => exact .inl ⟨_, State.busAccess_outside hwin⟩
  | some off =>
    cases ht : accessTarget s.params off a.width with
    | none => exact .inl ⟨_, State.busAccess_error hwin ht⟩
    | some t =>
      cases a with
      | read => exact .inl ⟨_, State.busAccess_read hwin ht⟩
      | write addr width d =>
        exact .inr ⟨off, width, t, d, by rw [← addr_of_windowOffset hwin, Access.addr], ht, State.busAccess_write hwin ht d⟩

/-- An access made twice has the effect and the answer of one (R79). -/
theorem State.busAccess_busAccess (h : s.din.wf = true) : (s.busAccess a).busAccess a = s.busAccess a := by
  cases hwin : windowOffset s.params a.addr with
  | none =>
    rw [State.busAccess_outside hwin]
    exact State.busAccess_outside (s := s.respond none) hwin
  | some off =>
    cases ht : accessTarget s.params off a.width with
    | none =>
      rw [State.busAccess_error hwin ht]
      exact State.busAccess_error (s := s.respond (some .busError)) hwin ht
    | some t =>
      cases a with
      | read addr width =>
        rw [Access.addr] at hwin
        rw [Access.width] at ht
        rw [State.busAccess_read hwin ht]
        exact State.busAccess_read (s := s.respond (some (.word (s.readTarget t)))) hwin ht
      | write addr width d =>
        rw [Access.addr] at hwin
        rw [Access.width] at ht
        obtain ⟨hparams, -⟩ := s.busAccess_frame (.write addr width d)
        rw [State.busAccess_write (hparams ▸ hwin) (hparams ▸ ht), State.busAccess_write hwin ht, State.writeTarget_respond,
          State.writeTarget_writeTarget h]
        rfl

end

/-- What holds of an ignored write and of the write's effect holds of the write, whichever it is (R139). -/
theorem State.unlessBusy_induction {s t : State} {P : State → Prop} (hbusy : P s.ignoreWrite) (hidle : P t) :
    P (s.unlessBusy t) := by
  unfold State.unlessBusy
  split
  · exact hbusy
  · exact hidle

/-- The error report is written by STATUS writes with bit 2 set only (10_state.md R35). -/
theorem State.writeTarget_error {s : State} {t : Target} {d : Word} (h : t = .status → d.getLsbD 2 = false) :
    (s.writeTarget t d).err = s.err ∧ (s.writeTarget t d).errCode = s.errCode ∧ (s.writeTarget t d).failOp = s.failOp ∧
      (s.writeTarget t d).adapterCode = s.adapterCode := by
  cases t with
  | id | param | cmd | errinfo | res | dout | ctrl => exact ⟨rfl, rfl, rfl, rfl⟩
  | status =>
    rw [State.writeTarget, State.writeStatus_eq, h rfl]
    simp
  | len | kIn | ksn | reg | din =>
    exact State.unlessBusy_induction (P := fun u => u.err = s.err ∧ u.errCode = s.errCode ∧ u.failOp = s.failOp ∧
      u.adapterCode = s.adapterCode) ⟨rfl, rfl, rfl, rfl⟩ ⟨rfl, rfl, rfl, rfl⟩

/-- Only a DIN write changes DIN, and it keeps the canonical form (20_memory.md R72). -/
theorem State.writeTarget_din_wf {s : State} (h : s.din.wf = true) (t : Target) (d : Word) :
    (s.writeTarget t d).din.wf = true := by
  cases t with
  | id | param | cmd | errinfo | res | dout | ctrl => exact h
  | status => rwa [State.writeTarget, State.writeStatus_eq]
  | len | kIn | ksn | reg => exact State.unlessBusy_induction (P := fun u => u.din.wf = true) h h
  | din k => exact State.unlessBusy_induction (P := fun u => u.din.wf = true) h (Memory.wf_write32 h k d)

/-! The statements about the window. -/

/-- Settles O49: R31's map sends each offset to a register that ignores writes, or that reads 0. -/
theorem readOnlyAndWriteOnly : Obligations.ReadOnlyAndWriteOnly := by
  intro s d hdbuf
  have ignores {off : Nat} (t : Target) (hoff : off < 0x800) (halign : off % 4 = 0) (ht : registerMap.lookup off = some t)
      (hcmd : t ≠ .cmd) (hw : s.writeTarget t d = s) :
      s.after (hostWr s.params off d) = .next { s with resp := some .accepted } :=
    (s.after_hostWr_register hoff halign ht hcmd d).trans (by rw [hw]; rfl)
  have readsZero {off : Nat} (t : Target) (hoff : off < 0x800) (halign : off % 4 = 0) (ht : registerMap.lookup off = some t)
      (hr : s.readTarget t = 0) : s.after (hostRd s.params off) = .next { s with resp := some (.word 0) } :=
    hr ▸ s.after_hostRd_register hoff halign ht
  refine ⟨?readOnly, fun k halign hk => ?dout, ?writeOnly⟩
  case readOnly =>
    simp only [List.forall_mem_cons, List.not_mem_nil, false_implies, implies_true, and_true]
    exact ⟨ignores .id (by decide) rfl rfl (by decide) rfl, ignores .param (by decide) rfl rfl (by decide) rfl,
      ignores .errinfo (by decide) rfl rfl (by decide) rfl, ignores (.res 0) (by decide) rfl rfl (by decide) rfl,
      ignores (.res 1) (by decide) rfl rfl (by decide) rfl, ignores (.res 2) (by decide) rfl rfl (by decide) rfl,
      ignores (.res 3) (by decide) rfl rfl (by decide) rfl⟩
  case dout => exact s.after_hostWr (by omega) (by omega) (targetAt_dout hdbuf hk) (fun h => nomatch h) d
  case writeOnly =>
    simp only [List.forall_mem_cons, List.not_mem_nil, false_implies, implies_true, and_true]
    exact ⟨readsZero .cmd (by decide) rfl rfl rfl, readsZero (.kIn 0) (by decide) rfl rfl rfl,
      readsZero (.kIn 1) (by decide) rfl rfl rfl, readsZero (.kIn 2) (by decide) rfl rfl rfl,
      readsZero (.kIn 3) (by decide) rfl rfl rfl⟩

section
variable {s : State} {k : Nat} (hdbuf : s.params.dbufBytes ≤ 0x400) (halign : k % 4 = 0) (hk : k < s.params.dbufBytes)
include hdbuf halign hk

/-- The host's read of a DIN word (20_memory.md R72, R81). -/
theorem State.after_hostRd_din {w : Word} (hw : s.din.read32 k = w) :
    s.after (hostRd s.params (0x800 + k)) = .next { s with resp := some (.word w) } :=
  hw ▸ s.after_hostRd (by omega) (by omega) (targetAt_din hk)

/-- The host's write of a DIN word while idle (20_memory.md R72, R81). -/
theorem State.after_hostWr_din (hb : s.busy = false) (d : Word) :
    s.after (hostWr s.params (0x800 + k) d) = .next { s with din := s.din.write32 k d, resp := some .accepted } := by
  rw [s.after_hostWr (by omega) (by omega) (targetAt_din hk) (fun h => nomatch h) d, State.writeTarget,
    State.unlessBusy_idle hb]
  rfl

end

/-- Settles O52: the write is the word write of DIN, whose bytes are R72's. -/
theorem dinWordWriteAndReadBack : Obligations.DinWordWriteAndReadBack := by
  intro s off d hb hdbuf hwf halign hoff
  refine ⟨_, State.after_hostWr_din hdbuf halign hoff hb d, ?read, ?byte0, ?byte1, ?byte2, ?byte3,
    fun a ha => Memory.read_write32_outside hwf off d ha⟩
  case read =>
    exact State.after_hostRd_din (s := { s with din := s.din.write32 off d, resp := some .accepted }) hdbuf halign hoff
      (Memory.read32_write32 hwf off d)
  all_goals simp [Memory.read_write32 hwf]

/-- Nothing stands at the offsets that R31 leaves out and past the buffers (20_memory.md R75). -/
theorem targetAt_unmapped {n off : Nat} (hn : n ≤ 0x400)
    (h : off = 0x01C ∨ off = 0x03C ∨ (0x048 ≤ off ∧ off < 0x050) ∨ (0x060 ≤ off ∧ off < 0x800) ∨
      (0x800 + n ≤ off ∧ off < 0xC00) ∨ 0xC00 + n ≤ off) : targetAt n off = none := by
  rw [targetAt, if_neg (by omega), if_neg (by omega), List.lookup_eq_none_iff]
  simp [registerMap]
  omega

/-- Settles O53: the access reaches no register. -/
theorem busErrorsChangeNothing : Obligations.BusErrorsChangeNothing := by
  intro s a off hdbuf hoff haddr h
  have hwin : windowOffset s.params a.addr = some off := haddr ▸ windowOffset_base s.params hoff
  have ht : accessTarget s.params off a.width = none := by
    rw [accessTarget]
    split
    · rename_i hacc
      exact targetAt_unmapped hdbuf ((h.resolve_left (not_not_intro hacc.1)).resolve_left (not_not_intro hacc.2))
    · rfl
  rw [State.after_access_bus (commandWrite_no_target hwin ht), State.busAccess_error hwin ht]
  rfl

/-- Settles O54: a read and an access outside the window only answer; a register written twice is written once. -/
theorem readsArePureAndWritesIdempotent : Obligations.ReadsArePureAndWritesIdempotent := by
  refine ⟨fun s addr width => ?reads, fun s t a hwf hcmd hs => ?writes, fun s a haddr => ?outside⟩
  case reads =>
    obtain ⟨r, hr⟩ | ⟨off, w, t, d, ha, -, -⟩ := s.busAccess_cases (.read addr width)
    · exact ⟨r, (State.after_access_bus rfl).trans (by rw [hr]; rfl)⟩
    · cases ha
  case writes =>
    obtain rfl := Host.Outcome.next.inj ((State.after_access_bus hcmd).symm.trans hs)
    obtain ⟨hparams, -⟩ := s.busAccess_frame a
    rw [State.after_access_bus (hparams ▸ hcmd), State.busAccess_busAccess hwf]
  case outside =>
    have hwin : windowOffset s.params a.addr = none := if_neg (by omega)
    rw [State.after_access_bus (commandWrite_outside hwin), State.busAccess_outside hwin]
    rfl

/-- The last turn of the poll loop is a read of STATUS (30_encoding.md R111). -/
theorem State.pollStatus_idle {s : State} (hb : s.busy = false) : s.pollStatus = s.respond (some (.word s.statusWord)) := by
  simp [State.pollStatus, hb]

/-- Settles O46: an idle engine with nothing pending takes no step, and no access but a CMD write reaches RESULT or DOUT. -/
theorem resultsLastUntilTheNextIssue : Obligations.ResultsLastUntilTheNextIssue := by
  intro s t x hb hpend hs hreset hcmd
  have answered {r : Option BusResponse} (ht : s.respond r = t) :
      t.busy = false ∧ t.result = s.result ∧ t.dout = s.dout ∧
        ((∀ d, x = hostWr s.params 0x00C d → d.getLsbD 2 = false) →
          t.err = s.err ∧ t.errCode = s.errCode ∧ t.failOp = s.failOp ∧ t.adapterCode = s.adapterCode) := by
    subst ht
    exact ⟨hb, rfl, rfl, fun _ => ⟨rfl, rfl, rfl, rfl⟩⟩
  cases x with
  | access a =>
    have hbus : commandWrite s.params a = none :=
      Option.eq_none_iff_forall_ne_some.mpr fun w hw => hcmd w (commandWrite_eq_some hw)
    obtain rfl := Host.Outcome.next.inj ((State.after_access_bus hbus).symm.trans hs)
    obtain ⟨r, hr⟩ | ⟨off, width, t, d, rfl, ht, hw⟩ := s.busAccess_cases a
    · exact answered hr.symm
    · obtain ⟨-, hbusy, hresult, hdout, -⟩ := s.busAccess_frame (.write (s.params.base + off) width d)
      refine ⟨hbusy.trans hb, hresult, hdout, fun hack => ?_⟩
      rw [hw]
      refine State.writeTarget_error fun hstatus => hack d ?_
      obtain ⟨rfl, rfl⟩ := accessTarget_status (hstatus ▸ ht)
      rfl
  | tick => exact answered (r := s.resp) (Host.Outcome.next.inj ((agentStep_idle hpend hb _).symm.trans hs))
  | poll => exact answered ((State.pollStatus_idle hb).symm.trans (Host.Outcome.next.inj hs))
  | noAnswer =>
    exact answered (r := s.resp) ((State.leaveUnanswered_none hpend).symm.trans (Host.Outcome.next.inj hs))
  | lateAnswer => exact answered (r := s.resp) (Host.Outcome.next.inj hs)
  | reset => exact absurd rfl hreset

/-! What a step of engine or adapter can do, from any state (40_command_lifecycle.md R130, R135, R141). -/

/-- What DOUT holds after a phase action: what it held, or that with block BI written by the phase DATA (20_memory.md R82). -/
def State.NextDout (s : State) (m : Memory) : Prop :=
  m = s.dout ∨ s.work.ph = .data ∧ ∃ out, m = s.dout.write64 (8 * s.work.bi.toNat) out

theorem State.NextDout.wf {s : State} {m : Memory} (h : s.NextDout m) (hwf : s.dout.wf = true) : m.wf = true := by
  obtain rfl | ⟨-, out, rfl⟩ := h
  · exact hwf
  · exact Memory.wf_write64 hwf _ out

/-- Bytes outside block BI of the phase DATA are as before (20_memory.md R82). -/
theorem State.NextDout.read_eq {s : State} {m : Memory} (h : s.NextDout m) (hwf : s.dout.wf = true) {a : Nat}
    (ha : s.work.ph = .data → a < 8 * s.work.bi.toNat ∨ 8 * s.work.bi.toNat + 8 ≤ a) : m.read a = s.dout.read a := by
  obtain rfl | ⟨hph, out, rfl⟩ := h
  · rfl
  · exact Memory.read_write64_outside hwf _ out (ha hph)

/-- The states in which a phase action run in `s` can end: it writes working registers and DOUT, and may complete the command. -/
inductive State.ActionEnd (s : State) : State → Prop
  | goesOn (w : Working) {m : Memory} (hm : s.NextDout m) : s.ActionEnd { s with work := w, dout := m }
  | completes (w : Working) {m : Memory} (hm : s.NextDout m) (v : Option Key) :
    s.ActionEnd (State.complete { s with work := w, dout := m } v)

section
variable {s t : State}

theorem State.ActionEnd.nextPhase (w : Working) : s.ActionEnd { s with work := w } := .goesOn w (.inl rfl)

theorem State.ActionEnd.delivers (w : Working) (v : Option Key) : s.ActionEnd (State.complete { s with work := w } v) :=
  .completes w (.inl rfl) v

/-- The end of the walk (41_ipek_walk.md R168; 42_session_variants.md R197). -/
theorem State.ActionEnd.of_afterWalk {w : Working} (h : State.afterWalk { s with work := w } = .next t) : s.ActionEnd t := by
  unfold State.afterWalk at h
  split at h
  · obtain rfl := Host.Outcome.next.inj h
    exact .delivers w _
  · split at h
    · obtain rfl := Host.Outcome.next.inj h
      unfold State.variantStep
      split
      · dsimp only
        split
        · exact .delivers _ _
        · exact .nextPhase _
      · exact .nextPhase _
    · cases h

/-- The end of a DATA step (43_data_cipher.md R213, R214). -/
theorem State.ActionEnd.of_dataBlock (hph : s.work.ph = .data) (out chain : Block) : s.ActionEnd (s.dataBlock out chain) := by
  unfold State.dataBlock
  dsimp only
  split
  · exact .completes _ (.inr ⟨hph, out, rfl⟩) none
  · exact .goesOn _ (.inr ⟨hph, out, rfl⟩)

/-- Every end of a phase action, whatever the cipher answers. -/
theorem State.ActionEnd.of_yields (hy : (phaseAction s).Yields (.next t)) : s.ActionEnd t := by
  unfold phaseAction at hy
  cases hph : s.work.ph with
  | idle => simp [hph] at hy
  | ipekL | dekL =>
    simp only [hph] at hy
    obtain ⟨c, hc⟩ := hy
    obtain rfl := Host.Outcome.next.inj hc
    exact .nextPhase _
  | ipekR | dekR =>
    simp only [hph] at hy
    obtain ⟨c, hc⟩ := hy
    dsimp only at hc
    split at hc
    · obtain rfl := Host.Outcome.next.inj hc
      exact .delivers _ _
    · obtain rfl := Host.Outcome.next.inj hc
      exact .nextPhase _
  | walk =>
    simp only [hph] at hy
    obtain ⟨w, -, hw⟩ := (Prog.yields_bind _ _ _).mp hy
    replace hw := (Prog.yields_ret _ _).mp hw
    split at hw
    · exact .of_afterWalk hw.symm
    · obtain rfl := Host.Outcome.next.inj hw
      exact .nextPhase _
  | data =>
    simp only [hph] at hy
    unfold phaseData at hy
    split at hy
    · dsimp only at hy
      split at hy
      · obtain ⟨c, hc⟩ := hy
        obtain rfl := Host.Outcome.next.inj hc
        exact .of_dataBlock hph c c
      · split at hy
        · obtain ⟨r, hr⟩ := hy
          obtain rfl := Host.Outcome.next.inj hr
          exact .of_dataBlock hph _ _
        · cases hy
    · cases hy
  | gen | ereg =>
    simp only [hph] at hy
    obtain ⟨k, -, hk⟩ := (Prog.yields_bind _ _ _).mp hy
    obtain rfl := Host.Outcome.next.inj hk
    exact .delivers s.work _

end

/-- The steps of engine and adapter from `s`: the adapter answers or fails the pending request, the engine sends a request or ends its
phase action, and an idle block stays as it is. -/
inductive State.AgentMove (s : State) : State → Prop
  | answers {q : Request} {r : Block} (hpend : s.pend = some q) (hr : s.adapter q = .ok r) :
    s.AgentMove { s with pend := none, answers := s.answers ++ [r] }
  | fails {q : Request} {x : FailCode} (hpend : s.pend = some q) (hx : s.adapter q = .fail x) :
    s.AgentMove (State.raise { s with pend := none } .adapterFailure s.work.opc x)
  | sends (q : Request) (hpend : s.pend = none) (hb : s.busy = true) : s.AgentMove (s.send q)
  | ends {t : State} (hpend : s.pend = none) (hb : s.busy = true) (ht : State.ActionEnd { s with answers := [] } t) :
    s.AgentMove t
  | idle (hpend : s.pend = none) (hb : s.busy = false) : s.AgentMove s

section
variable {s t : State}

/-- A step of the enabled agent is one of these; with none enabled it is what `stuck` answers. -/
theorem agentStep_move {stuck : StepOutcome} (h : agentStep stuck s = .next t) : stuck = .next t ∨ s.AgentMove t := by
  cases hpend : s.pend with
  | some q =>
    cases hsilent : s.silent with
    | true => exact .inl (agentStep_silent hpend hsilent stuck ▸ h)
    | false =>
      obtain rfl : s.adapterStep q = t := by simpa [agentStep_pending hpend hsilent] using h
      obtain ⟨r, hr, ht⟩ | ⟨x, hx, ht⟩ := State.adapterStep_cases s q
      · exact .inr (ht ▸ .answers hpend hr)
      · exact .inr (ht ▸ .fails hpend hx)
  | none =>
    cases hb : s.busy with
    | true =>
      rw [agentStep_busy hpend hb] at h
      obtain ⟨q, -, -, hq⟩ | ⟨o, ho, hx⟩ := engineStep_cases s
      · obtain rfl : s.send q = t := by simpa [hq] using h
        exact .inr (.sends q hpend hb)
      · obtain rfl : o = .next t := hx.symm.trans h
        exact .inr (.ends hpend hb (.of_yields (Prog.yields_of_resume ho)))
    | false =>
      obtain rfl : s = t := by simpa [agentStep_idle hpend hb] using h
      exact .inr (.idle hpend hb)

/-- With no input left a step is one of these. -/
theorem step_move (hin : s.inputs = []) (h : step s = .next t) : s.AgentMove t :=
  (agentStep_move ((step_no_input hin).symm.trans h)).resolve_left fun hstuck => nomatch hstuck

/-- The registers that no agent writes (R135). -/
theorem State.AgentMove.frame (h : s.AgentMove t) :
    t.params = s.params ∧ t.ops = s.ops ∧ t.irqEn = s.irqEn ∧ t.wrIgn = s.wrIgn ∧ t.silent = s.silent ∧ t.inputs = s.inputs ∧
      t.resp = s.resp ∧ t.din = s.din := by
  cases h with
  | answers | fails | sends | idle => exact ⟨rfl, rfl, rfl, rfl, rfl, rfl, rfl, rfl⟩
  | ends _ _ ht => cases ht <;> exact ⟨rfl, rfl, rfl, rfl, rfl, rfl, rfl, rfl⟩

/-- RESULT and the result flags are written by the completions only, which lower BUSY (R136, R137). -/
theorem State.AgentMove.result_of_busy (h : s.AgentMove t) (hb : t.busy = true) :
    t.result = s.result ∧ t.done = s.done ∧ t.err = s.err ∧ t.errCode = s.errCode ∧ t.failOp = s.failOp ∧
      t.adapterCode = s.adapterCode := by
  cases h with
  | answers | sends | idle => exact ⟨rfl, rfl, rfl, rfl, rfl, rfl⟩
  | fails => cases hb
  | ends _ _ ht =>
    cases ht with
    | goesOn => exact ⟨rfl, rfl, rfl, rfl, rfl, rfl⟩
    | completes => cases hb

/-- DOUT after a step: empty in the error completion of a failed request, and else what a phase action leaves in it, which differs only if
a phase action has ended. -/
theorem State.AgentMove.dout (h : s.AgentMove t) :
    (∃ q x, s.pend = some q ∧ s.adapter q = .fail x ∧ t = State.raise { s with pend := none } .adapterFailure s.work.opc x) ∨
    t.dout = s.dout ∨ (s.busy = true ∧ s.pend = none ∧ t.pend = none ∧ s.NextDout t.dout) := by
  cases h with
  | answers | sends | idle => exact .inr (.inl rfl)
  | fails hpend hx => exact .inl ⟨_, _, hpend, hx, rfl⟩
  | ends hpend hb ht =>
    cases ht with
    | goesOn _ hm | completes _ hm => exact .inr (.inr ⟨hb, hpend, hpend, hm⟩)

end

/-- Settles O45: each move of engine and adapter has the frame. -/
theorem engineStepFrame : Obligations.EngineStepFrame := by
  intro s t hwf hin hs
  have move := step_move hin hs
  obtain ⟨hparams, hops, hirq, hwrIgn, hsilent, hinputs, hresp, hdin⟩ := move.frame
  refine ⟨hparams, hops, hirq, hwrIgn, hsilent, hinputs, hresp, fun a => by rw [hdin], move.result_of_busy, ?_⟩
  obtain ⟨q, x, hpend, hx, rfl⟩ | hsame | ⟨hb, hpend, hpend', hnext⟩ := move.dout
  · exact .inl ⟨q, x, hpend, hx, rfl, rfl, rfl, rfl, fun _ => rfl⟩
  · exact .inr fun a _ => by rw [hsame]
  · exact .inr fun a ha => hnext.read_eq hwf fun hph => ha hb hph hpend hpend'

/-- All that a CMD write of any word can do: nothing but WR_IGN while busy, an error completion, or the start of the command (R131). -/
theorem issueWord_cases (w : Word) (s : State) :
    (s.busy = true ∧ issueWord w s = .next s.ignoreWrite) ∨
    (s.busy = false ∧ ∃ e failOp, issueWord w s = .next (s.clearOnIssue.raise e failOp 0)) ∨
    (s.busy = false ∧ ∃ i, decode w = .ok i ∧ s.issueError (commandNeeds i) = none ∧
      issueWord w s = .next (commandStart i s.clearOnIssue)) := by
  unfold issueWord
  cases hw : decode w with
  | ok i =>
    obtain ⟨hb, hx⟩ | ⟨e, hb, -, hx⟩ | ⟨hb, he, hx⟩ := exec_cases i s
    · exact .inl ⟨hb, hx⟩
    · exact .inr (.inl ⟨hb, e, i.opcode, hx⟩)
    · exact .inr (.inr ⟨hb, i, rfl, he, hx⟩)
  | error _ =>
    cases hb : s.busy with
    | true => exact .inl ⟨rfl, issueIllegal_busy hb w⟩
    | false => exact .inr (.inl ⟨rfl, _, _, issueIllegal_idle hb w⟩)

/-! The canonical form of both buffers (20_memory.md R72). -/

/-- DIN and DOUT are in canonical form. -/
def State.Canonical (s : State) : Prop := s.din.wf = true ∧ s.dout.wf = true

section
variable {s t : State} (h : s.Canonical)
include h

theorem State.Canonical.agentMove (ht : s.AgentMove t) : t.Canonical := by
  obtain ⟨-, -, -, -, -, -, -, hdin⟩ := ht.frame
  refine ⟨hdin ▸ h.1, ?_⟩
  obtain ⟨_, _, -, -, rfl⟩ | hsame | ⟨-, -, -, hnext⟩ := ht.dout
  · rfl
  · exact hsame ▸ h.2
  · exact hnext.wf h.2

theorem State.Canonical.busAccess (a : Access) : (s.busAccess a).Canonical := by
  obtain ⟨-, -, -, hdout, -⟩ := s.busAccess_frame a
  refine ⟨?_, hdout ▸ h.2⟩
  obtain ⟨r, hr⟩ | ⟨_, _, t, d, -, -, hw⟩ := s.busAccess_cases a
  · exact hr ▸ h.1
  · exact hw ▸ State.writeTarget_din_wf h.1 t d

/-- An error completion empties DOUT (R137). -/
theorem State.Canonical.raise (e : ErrCode) (failOp : BitVec 8) (x : FailCode) : (s.raise e failOp x).Canonical := ⟨h.1, rfl⟩

theorem State.Canonical.commandStart (i : Instr) : (commandStart i s).Canonical := by
  cases i with
  | clear => exact ⟨rfl, rfl⟩
  | _ => exact h

theorem State.Canonical.issueWord {w : Word} (hs : issueWord w s = .next t) : t.Canonical := by
  have hclear : s.clearOnIssue.Canonical := ⟨h.1, rfl⟩
  obtain ⟨-, hx⟩ | ⟨-, e, failOp, hx⟩ | ⟨-, i, -, -, hx⟩ := issueWord_cases w s
  · exact Host.Outcome.next.inj (hx.symm.trans hs) ▸ h
  · exact Host.Outcome.next.inj (hx.symm.trans hs) ▸ hclear.raise e failOp 0
  · exact Host.Outcome.next.inj (hx.symm.trans hs) ▸ hclear.commandStart i

theorem State.Canonical.deliver {x : Input} (hs : deliver x s = .next t) : t.Canonical := by
  cases x with
  | access a =>
    cases hc : commandWrite s.params a with
    | none => exact Host.Outcome.next.inj ((hostAccess_bus hc).symm.trans hs) ▸ h.busAccess a
    | some w => exact State.Canonical.issueWord (s := s.respond (some .accepted)) h ((hostAccess_command hc).symm.trans hs)
  | tick =>
    obtain ht | move := agentStep_move hs
    · exact Host.Outcome.next.inj ht ▸ h
    · exact h.agentMove move
  | poll =>
    obtain rfl := Host.Outcome.next.inj hs
    unfold State.pollStatus
    dsimp only
    split <;> exact h
  | noAnswer =>
    obtain rfl := Host.Outcome.next.inj hs
    unfold State.leaveUnanswered
    split <;> exact h
  | lateAnswer => exact Host.Outcome.next.inj hs ▸ h
  | reset => exact Host.Outcome.next.inj hs ▸ ⟨rfl, rfl⟩

end

/-- Settles O40: the next input keeps both buffers canonical, and so does the enabled agent when no input is left. -/
theorem buffersStayCanonical : Obligations.BuffersStayCanonical := by
  intro s t hdin hdout hs
  have h : s.Canonical := ⟨hdin, hdout⟩
  cases hin : s.inputs with
  | nil => exact h.agentMove (step_move hin hs)
  | cons x rest =>
    rw [step_input hin] at hs
    exact State.Canonical.deliver (s := { s with inputs := rest }) h hs

end Sys2Proof.Machine

/-! PROOFS. The encoding (30_encoding.md). First the command words: a word and its fields are the same data, and the fields that pass the
checks of R106 are those of the commands, so a word decodes to a command exactly if it is the command's word. Then the pseudo-operations of R111: the
writes that load a whole operand, and one turn of the poll loop. -/

namespace Sys2Proof

/-! A word is its fields (R101). -/

@[simp] theorem variantOf_eq_data (b : Bool) : variantOf b = .data ↔ b = true := by
  cases b <;> decide

@[simp] theorem wordOf_fieldsOf (w : Word) : wordOf (fieldsOf w) = w := by
  ext n hn
  cases hv : w.getLsbD 8 <;> grind [wordOf, fieldsOf, variantOf, variantBit]

@[simp] theorem fieldsOf_wordOf (f : Fields) : fieldsOf (wordOf f) = f := by
  obtain ⟨rsv, v, op⟩ := f
  have hrsv : (rsv ++ variantBit v ++ op).extractLsb' 9 23 = rsv := by
    ext n hn
    grind
  have hv : variantOf ((rsv ++ variantBit v ++ op).getLsbD 8) = v := by
    have hbit : (rsv ++ variantBit v ++ op).getLsbD 8 = (variantBit v).getLsbD 0 := by grind
    rw [hbit]
    cases v <;> rfl
  have hop : (rsv ++ variantBit v ++ op).extractLsb' 0 8 = op := by
    ext n hn
    grind
  rw [fieldsOf, wordOf, hrsv, hv, hop]

theorem fieldsOf_encode (i : Instr) : fieldsOf (encode i) = i.fields := fieldsOf_wordOf i.fields

/-! The checks of R106 pass for the fields of the commands and for no others. -/

theorem Instr.check_fields (i : Instr) : i.fields.check = .ok () := by
  cases i with
  | sessionKey v | encrypt v | decrypt v => cases v <;> rfl
  | _ => rfl

theorem commandOf_fields (i : Instr) : commandOf i.fields.op i.fields.v = some i := by
  cases i <;> rfl

section
variable {f : Fields}

theorem Fields.opDefined_iff (f : Fields) : f.opDefined = true ↔ (1 ≤ f.op.toNat ∧ f.op.toNat ≤ 9) ∨ f.op.toNat = 15 := by
  simp [Fields.opDefined]

theorem Fields.takesVariant_iff (f : Fields) : f.takesVariant = true ↔ 7 ≤ f.op.toNat ∧ f.op.toNat ≤ 9 := by
  simp [Fields.takesVariant]

theorem Fields.check_reservedBits (hr : f.rsv ≠ 0) : f.check = .error .reservedBits := by
  rw [Fields.check, if_pos hr]

theorem Fields.check_reservedOp (hr : f.rsv = 0) (ho : ¬f.opDefined = true) : f.check = .error .reservedOp := by
  simp [Fields.check, hr, ho]

theorem Fields.check_variantNotTaken (hr : f.rsv = 0) (ho : f.opDefined = true) (hv : f.v = .data)
    (ht : ¬f.takesVariant = true) : f.check = .error .variantNotTaken := by
  simp [Fields.check, hr, ho, hv, ht]

theorem Fields.check_eq_ok_iff :
    f.check = .ok () ↔ f.rsv = 0 ∧ f.opDefined = true ∧ (f.v = .data → f.takesVariant = true) := by
  rw [Fields.check]
  split_ifs with hr ho hv <;> simp_all

/-- Fields that pass the checks are those of a command, found by its operation code (R102, R103). -/
theorem Fields.exists_instr (h : f.check = .ok ()) : ∃ i : Instr, i.fields = f := by
  obtain ⟨rsv, v, op⟩ := f
  obtain ⟨hr, ho, hv⟩ := Fields.check_eq_ok_iff.mp h
  simp only [Fields.opDefined_iff, Fields.takesVariant_iff] at hr ho hv
  subst hr
  have found {n : Nat} (hn : op.toNat = n) (i : Instr) (hi : i.fields = ⟨0, v, BitVec.ofNat 8 n⟩) :
      ∃ i : Instr, i.fields = ⟨0, v, op⟩ := by
    obtain rfl := hn
    exact ⟨i, by rw [hi, BitVec.ofNat_toNat, BitVec.setWidth_eq]⟩
  by_cases ht : 7 ≤ op.toNat ∧ op.toNat ≤ 9
  · obtain h7 | h8 | h9 : op.toNat = 7 ∨ op.toNat = 8 ∨ op.toNat = 9 := by omega
    · exact found h7 (.sessionKey v) rfl
    · exact found h8 (.encrypt v) rfl
    · exact found h9 (.decrypt v) rfl
  · obtain rfl : v = .pin := by
      cases v with
      | pin => rfl
      | data => exact absurd (hv rfl) ht
    obtain h1 | h2 | h3 | h4 | h5 | h6 | h15 : op.toNat = 1 ∨ op.toNat = 2 ∨ op.toNat = 3 ∨ op.toNat = 4 ∨ op.toNat = 5 ∨
        op.toNat = 6 ∨ op.toNat = 15 := by omega
    · exact found h1 .createIpek rfl
    · exact found h2 .deriveKey rfl
    · exact found h3 .generateKey rfl
    · exact found h4 .encryptRegister rfl
    · exact found h5 .sessionPek rfl
    · exact found h6 .sessionDek rfl
    · exact found h15 .clear rfl

end

/-! Decoding and encoding undo each other. -/

theorem decode_of_fieldsOf {w : Word} {i : Instr} (h : fieldsOf w = i.fields) : decode w = .ok i := by
  simp [decode, h, Instr.check_fields, commandOf_fields]

theorem decode_of_check_error {w : Word} {e : Illegal} (h : (fieldsOf w).check = .error e) : decode w = .error e := by
  simp [decode, h]

theorem decode_encode (i : Instr) : decode (encode i) = .ok i := decode_of_fieldsOf (fieldsOf_encode i)

theorem exists_decode_of_check {w : Word} (h : (fieldsOf w).check = .ok ()) : ∃ i, decode w = .ok i ∧ fieldsOf w = i.fields := by
  obtain ⟨i, hi⟩ := Fields.exists_instr h
  exact ⟨i, decode_of_fieldsOf hi.symm, hi.symm⟩

/-- The words that decode to a command are the commands' words. -/
theorem decode_eq_ok_iff {w : Word} {i : Instr} : decode w = .ok i ↔ encode i = w := by
  constructor
  · intro h
    cases hc : (fieldsOf w).check with
    | error e => rw [decode_of_check_error hc] at h; cases h
    | ok _ =>
      obtain ⟨j, hj, hw⟩ := exists_decode_of_check hc
      obtain rfl : j = i := Except.ok.inj (hj.symm.trans h)
      rw [encode, ← hw, wordOf_fieldsOf]
  · rintro rfl
    exact decode_encode i

/-- Settles O4: a word and its fields are the same data, and the legal fields are those of the commands. -/
theorem decodeEncodeAgree : Obligations.DecodeEncodeAgree := ⟨decode_encode, fun _ _ => decode_eq_ok_iff.mp⟩

/-- Settles O1: each literal is the word of its command. -/
theorem tableWordsDecode : Obligations.TableWordsDecode :=
  ⟨decode_encode .createIpek, decode_encode .deriveKey, decode_encode .generateKey, decode_encode .encryptRegister,
    decode_encode .sessionPek, decode_encode .sessionDek, decode_encode (.sessionKey .pin), decode_encode (.sessionKey .data),
    decode_encode (.encrypt .pin), decode_encode (.encrypt .data), decode_encode (.decrypt .pin), decode_encode (.decrypt .data),
    decode_encode .clear⟩

/-- Settles O2: the legal words are the words of the commands, and there are 13 commands with their variants. -/
theorem legalWordsAreTheThirteen : Obligations.LegalWordsAreTheThirteen := by
  constructor
  · intro w
    constructor
    · rintro ⟨i, hi⟩
      obtain rfl := decode_eq_ok_iff.mp hi
      cases i with
      | sessionKey v | encrypt v | decrypt v => cases v <;> decide
      | _ => decide
    · intro hw
      simp only [List.mem_cons, List.not_mem_nil, or_false] at hw
      rcases hw with rfl | rfl | rfl | rfl | rfl | rfl | rfl | rfl | rfl | rfl | rfl | rfl | rfl <;> exact ⟨_, rfl⟩
  · intro w i hi hv
    obtain rfl := decode_eq_ok_iff.mp hi
    have hop : (encode i).extractLsb' 0 8 = i.opcode := congrArg Fields.op (fieldsOf_encode i)
    have hvar : i.variant = .data :=
      (congrArg Fields.v (fieldsOf_encode i)).symm.trans ((variantOf_eq_data _).mpr hv)
    rw [hop]
    cases i with
    | sessionKey v => exact .inl rfl
    | encrypt v => exact .inr (.inl rfl)
    | decrypt v => exact .inr (.inr rfl)
    | _ => cases hvar

/-- Settles O3: a failing check names the refusal, and fields that pass every check are those of the command found. -/
theorem decodeFollowsTheChecks : Obligations.DecodeFollowsTheChecks := by
  intro w
  have hdef := (fieldsOf w).opDefined_iff
  have htakes := (fieldsOf w).takesVariant_iff
  refine ⟨fun hr => ?_, fun hr ho => ?_, fun hr ho hv ht => ?_, fun hr ho hv => ?_⟩
  · exact decode_of_check_error (Fields.check_reservedBits hr)
  · exact decode_of_check_error (Fields.check_reservedOp hr (mt hdef.mp ho))
  · exact decode_of_check_error
      (Fields.check_variantNotTaken hr (hdef.mpr ho) ((variantOf_eq_data _).mpr hv) (mt htakes.mp ht))
  · have hc : (fieldsOf w).check = .ok () :=
      Fields.check_eq_ok_iff.mpr ⟨hr, hdef.mpr ho, fun hd => htakes.mpr (hv.resolve_left (by simpa [fieldsOf] using hd))⟩
    obtain ⟨i, hi, hw⟩ := exists_decode_of_check hc
    exact ⟨i, hi, (congrArg Fields.op hw).symm, (congrArg Fields.v hw).symm⟩

end Sys2Proof

namespace Sys2Proof.Machine

/-! An operand written word by word (10_state.md R39 to R41, R43): a register is its words, so writing all of
them leaves the value, whatever stood there. -/

theorem eq_of_keyWord_eq {a b : Key} (h : ∀ j, keyWord a j = keyWord b j) : a = b := by
  have hwords (k : Key) : k = keyWord k 0 ++ keyWord k 1 ++ keyWord k 2 ++ keyWord k 3 := by
    ext n hn
    grind [keyWord]
  rw [hwords a, hwords b, h 0, h 1, h 2, h 3]

theorem eq_of_ksnWord_eq {a b : Ksn} (h : ∀ j, ksnWord a j = ksnWord b j) : a = b := by
  have hwords (k : Ksn) : k = (ksnWord k 0).setWidth 16 ++ ksnWord k 1 ++ ksnWord k 2 := by
    ext n hn
    grind [ksnWord]
  rw [hwords a, hwords b, h 0, h 1, h 2]

theorem eq_of_regWord_eq {a b : Block} (h : ∀ j, regWord a j = regWord b j) : a = b := by
  rw [← Memory.block_of_words a, ← Memory.block_of_words b]
  exact congrArg₂ _ (h 0) (h 1)

theorem ksnWord_zero_low (k : Ksn) : ((ksnWord k 0).extractLsb' 0 16).setWidth 32 = ksnWord k 0 := by
  ext n hn
  grind [ksnWord]

theorem setKeyWord_all (x k : Key) :
    setKeyWord (setKeyWord (setKeyWord (setKeyWord x 0 (keyWord k 0)) 1 (keyWord k 1)) 2 (keyWord k 2)) 3 (keyWord k 3) = k := by
  apply eq_of_keyWord_eq
  intro j
  fin_cases j <;> simp [keyWord_setKeyWord]

theorem setKsnWord_all (x k : Ksn) :
    setKsnWord (setKsnWord (setKsnWord x 0 (ksnWord k 0)) 1 (ksnWord k 1)) 2 (ksnWord k 2) = k := by
  apply eq_of_ksnWord_eq
  intro j
  fin_cases j <;> simp [ksnWord_setKsnWord, ksnWord_zero_low]

theorem setRegWord_all (x g : Block) : setRegWord (setRegWord x 0 (regWord g 0)) 1 (regWord g 1) = g := by
  apply eq_of_regWord_eq
  intro j
  fin_cases j <;> simp [regWord_setRegWord]

theorem Operands.writeKIn_all (o : Operands) (k : Key) :
    (((o.writeKIn 0 (keyWord k 0)).writeKIn 1 (keyWord k 1)).writeKIn 2 (keyWord k 2)).writeKIn 3 (keyWord k 3) =
      { o with kIn := k, kinWm := 0b1111#4 } := by
  have hmask : ∀ m : BitVec 4, setMaskBit (setMaskBit (setMaskBit (setMaskBit m 0) 1) 2) 3 = 0b1111#4 := by decide
  simp [Operands.writeKIn, setKeyWord_all, hmask]

theorem Operands.writeKsn_all (o : Operands) (k : Ksn) :
    ((o.writeKsn 0 (ksnWord k 0)).writeKsn 1 (ksnWord k 1)).writeKsn 2 (ksnWord k 2) = { o with ksn := k, ksnWm := 0b111#3 } := by
  have hmask : ∀ m : BitVec 3, setMaskBit (setMaskBit (setMaskBit m 0) 1) 2 = 0b111#3 := by decide
  simp [Operands.writeKsn, setKsnWord_all, hmask]

theorem Operands.writeReg_all (o : Operands) (g : Block) :
    (o.writeReg 0 (regWord g 0)).writeReg 1 (regWord g 1) = { o with reg := g, regWm := 0b11#2 } := by
  have hmask : ∀ m : BitVec 2, setMaskBit (setMaskBit m 0) 1 = 0b11#2 := by decide
  simp [Operands.writeReg, setRegWord_all, hmask]

/-! Runs of operand writes (30_encoding.md R111). -/

/-- A host write of `d` to the target changes the operands by `f` and nothing else, and is ignored while busy (R139). -/
def Target.Loads (t : Target) (d : Word) (f : Operands → Operands) : Prop :=
  ∀ s : State, s.writeTarget t d = s.unlessBusy { s with ops := f s.ops }

theorem Target.kIn_loads (j : Fin 4) (d : Word) : (Target.kIn j).Loads d (·.writeKIn j d) := fun _ => rfl

theorem Target.ksn_loads (j : Fin 3) (d : Word) : (Target.ksn j).Loads d (·.writeKsn j d) := fun _ => rfl

theorem Target.reg_loads (j : Fin 2) (d : Word) : (Target.reg j).Loads d (·.writeReg j d) := fun _ => rfl

theorem State.after_hostWr_loads {s : State} (hb : s.busy = false) {off : Nat} {t : Target} {d : Word} {f : Operands → Operands}
    (hload : t.Loads d f) (hoff : off < 0x800) (halign : off % 4 = 0) (ht : registerMap.lookup off = some t) (hcmd : t ≠ .cmd) :
    s.after (hostWr s.params off d) = .next { s with ops := f s.ops, resp := some .accepted } := by
  rw [s.after_hostWr_register hoff halign ht hcmd d, hload, State.unlessBusy_idle hb]
  rfl

section
variable {s : State} (hb : s.busy = false)
include hb

/-- In a run of such writes the operands and the schedule change, and what the host gets back. -/
theorem runSteps_hostWr_loads {off n : Nat} {t : Target} {d : Word} {rest : List Input} {o : Operands} {r : Option BusResponse}
    {f : Operands → Operands} (hload : t.Loads d f) (hoff : off < 0x800 := by decide) (halign : off % 4 = 0 := by rfl)
    (ht : registerMap.lookup off = some t := by rfl) (hcmd : t ≠ .cmd := by decide) :
    runSteps (n + 1) { s with ops := o, inputs := hostWr s.params off d :: rest, resp := r } =
      runSteps n { s with ops := f o, inputs := rest, resp := some .accepted } := by
  have hstep : step { s with ops := o, inputs := hostWr s.params off d :: rest, resp := r } = .next _ :=
    State.after_hostWr_loads (s := { s with ops := o, inputs := rest, resp := r }) hb hload hoff halign ht hcmd
  rw [runSteps, hstep]

theorem runSteps_hostWkey (k : Key) :
    runSteps 4 { s with inputs := hostWkey s.params k ++ s.inputs } =
      .next { s with ops := { s.ops with kIn := k, kinWm := 0b1111#4 }, resp := some .accepted } := by
  simp only [hostWkey, List.cons_append, List.nil_append]
  rw [runSteps_hostWr_loads hb (Target.kIn_loads 0 _), runSteps_hostWr_loads hb (Target.kIn_loads 1 _),
    runSteps_hostWr_loads hb (Target.kIn_loads 2 _), runSteps_hostWr_loads hb (Target.kIn_loads 3 _), Operands.writeKIn_all]
  rfl

theorem runSteps_hostWksn (n : Ksn) :
    runSteps 3 { s with inputs := hostWksn s.params n ++ s.inputs } =
      .next { s with ops := { s.ops with ksn := n, ksnWm := 0b111#3 }, resp := some .accepted } := by
  simp only [hostWksn, List.cons_append, List.nil_append]
  rw [runSteps_hostWr_loads hb (Target.ksn_loads 0 _), runSteps_hostWr_loads hb (Target.ksn_loads 1 _),
    runSteps_hostWr_loads hb (Target.ksn_loads 2 _), Operands.writeKsn_all]
  rfl

theorem runSteps_hostWreg (g : Block) :
    runSteps 2 { s with inputs := hostWreg s.params g ++ s.inputs } =
      .next { s with ops := { s.ops with reg := g, regWm := 0b11#2 }, resp := some .accepted } := by
  simp only [hostWreg, List.cons_append, List.nil_append]
  rw [runSteps_hostWr_loads hb (Target.reg_loads 0 _), runSteps_hostWr_loads hb (Target.reg_loads 1 _), Operands.writeReg_all]
  rfl

end

/-! The poll loop (30_encoding.md R111). -/

theorem State.statusWord_busy (s : State) : s.statusWord.getLsbD 0 = s.busy := by
  grind [State.statusWord]

theorem State.pollStatus_eq (s : State) :
    s.pollStatus = { s.respond (some (.word s.statusWord)) with inputs := if s.busy then .tick :: .poll :: s.inputs else s.inputs } := by
  rw [State.pollStatus]
  cases s.busy <;> rfl

/-- Settles O51: the writes of a pseudo-operation reach every word of its operand and every bit of its mask, and bit 0 of STATUS is BUSY. -/
theorem pseudoOperationsLoadOperands : Obligations.PseudoOperationsLoadOperands := by
  constructor
  · intro s k n g hb
    exact ⟨runSteps_hostWkey hb k, runSteps_hostWksn hb n, runSteps_hostWreg hb g⟩
  · intro s t w hread hw
    rw [s.after_hostRd_register (by decide) rfl (t := .status) rfl] at hread
    obtain rfl := Host.Outcome.next.inj hread
    obtain rfl : s.statusWord = w := BusResponse.word.inj (Option.some.inj hw)
    rw [State.statusWord_busy]
    exact congrArg Host.Outcome.next s.pollStatus_eq

end Sys2Proof.Machine

/-! PROOFS. A CMD write, and what goes on around a command in progress (40_command_lifecycle.md R131, R139, R149): no host access reaches what the
engine works on, so a step of a busy machine, reset excepted, leaves the command as it is or is the step of the enabled agent. -/

namespace Sys2Proof.Machine

/-! The step of one input. -/

/-- A CMD write is accepted and issues its word (R131). -/
theorem hostAccess_cmd (s : State) (w : Word) :
    hostAccess (.write (s.params.base + 0x010) .w32 w) s = issueWord w (s.respond (some .accepted)) :=
  hostAccess_command (commandWrite_cmd s.params w)

theorem State.after_cmd (s : State) (w : Word) :
    s.after (hostWr s.params 0x010 w) = issueWord w (s.respond (some .accepted)) := hostAccess_cmd s w

theorem issueWord_decode {w : Word} {i : Instr} (h : decode w = .ok i) (s : State) : issueWord w s = exec i s := by
  simp [issueWord, h]

theorem issueWord_illegal {w : Word} {e : Illegal} (h : decode w = .error e) (s : State) : issueWord w s = issueIllegal w s := by
  simp [issueWord, h]

/-- While busy a CMD write of any word is ignored (R139). -/
theorem issueWord_busy {s : State} (hb : s.busy = true) (w : Word) : issueWord w s = .next s.ignoreWrite := by
  cases hw : decode w with
  | ok i => rw [issueWord_decode hw, exec_eq_issue, issueCommand_busy hb]
  | error e => rw [issueWord_illegal hw, issueIllegal_busy hb]

/-! What goes on around a command in progress (R139, R149). -/

/-- `t` differs from `s` in nothing that the command in progress works on, whatever the host did. -/
structure State.SameCommand (s t : State) : Prop extends s.SameAction t where
  busy : t.busy = s.busy
  dout : t.dout = s.dout
  result : t.result = s.result
  pend : t.pend = s.pend
  silent : s.silent = true → t.silent = true
  answers : t.answers = s.answers

section
variable {s t : State}

theorem State.sameCommand_of_engineView (h : t.engineView = s.engineView) : s.SameCommand t := by
  simp only [State.engineView, Prod.mk.injEq] at h
  obtain ⟨hparams, hbusy, hops, hdin, hdout, hwork, hpend, hsilent, hanswers, hresult⟩ := h
  exact ⟨⟨hparams, hops, hdin, hwork⟩, hbusy, hdout, hresult, hpend, fun hs => hsilent.trans hs, hanswers⟩

theorem State.unlessBusy_busy (hb : s.busy = true) (t : State) : s.unlessBusy t = s.ignoreWrite := by
  simp [State.unlessBusy, hb]

/-- While busy no register write reaches what the engine works on (R139). -/
theorem State.writeTarget_engineView (hb : s.busy = true) (r : Target) (d : Word) :
    (s.writeTarget r d).engineView = s.engineView := by
  cases r with
  | id | param | cmd | errinfo | res | dout | ctrl => rfl
  | status => rw [State.writeTarget, State.writeStatus_eq]; rfl
  | len | kIn | ksn | reg | din => rw [State.writeTarget, State.unlessBusy_busy hb]; rfl

theorem State.busAccess_engineView (hb : s.busy = true) (a : Access) : (s.busAccess a).engineView = s.engineView := by
  obtain ⟨r, hr⟩ | ⟨_, _, r, d, -, -, hw⟩ := s.busAccess_cases a
  · rw [hr]; rfl
  · rw [hw]; exact State.writeTarget_engineView hb r d

theorem State.busAccess_inputs (s : State) (a : Access) : (s.busAccess a).inputs = s.inputs := by
  obtain ⟨-, -, -, -, -, -, -, -, hinputs⟩ := s.busAccess_frame a
  exact hinputs

/-- While busy every host access is answered, and leaves what the engine works on as it is. -/
theorem hostAccess_engineView (hb : s.busy = true) (a : Access) :
    ∃ t, hostAccess a s = .next t ∧ t.engineView = s.engineView ∧ t.inputs = s.inputs := by
  cases hc : commandWrite s.params a with
  | none => exact ⟨_, hostAccess_bus hc, State.busAccess_engineView hb a, s.busAccess_inputs a⟩
  | some w =>
    exact ⟨_, (hostAccess_command hc).trans (issueWord_busy (s := s.respond (some .accepted)) hb w), rfl, rfl⟩

end

/-- Settles O43: a CMD write only sets WR_IGN, and no register write reaches what the engine works on. -/
theorem hostCannotDisturbTheEngine : Obligations.HostCannotDisturbTheEngine :=
  fun _ a hb => hostAccess_engineView hb a

section
variable {s t : State}

/-- While busy an input other than reset does nothing to the command in progress, or is a tick. -/
theorem deliver_busy {x : Input} (hb : s.busy = true) (hx : x ≠ .reset) (h : deliver x s = .next t) :
    s.SameCommand t ∨ x = .tick ∧ tick s = .next t := by
  cases x with
  | access a =>
    obtain ⟨u, hu, hview, -⟩ := hostAccess_engineView hb a
    obtain rfl := Host.Outcome.next.inj (hu.symm.trans h)
    exact .inl (State.sameCommand_of_engineView hview)
  | tick => exact .inr ⟨rfl, h⟩
  | poll =>
    obtain rfl := Host.Outcome.next.inj h
    refine .inl (State.sameCommand_of_engineView ?_)
    simp [State.pollStatus, hb, State.engineView]
  | noAnswer =>
    obtain rfl := Host.Outcome.next.inj h
    cases hq : s.pend with
    | none => rw [State.leaveUnanswered_none hq]; exact .inl (State.sameCommand_of_engineView rfl)
    | some q =>
      rw [State.leaveUnanswered_pending hq]
      exact .inl ⟨⟨rfl, rfl, rfl, rfl⟩, rfl, rfl, rfl, rfl, fun _ => rfl, rfl⟩
  | lateAnswer r =>
    obtain rfl := Host.Outcome.next.inj h
    exact .inl (State.sameCommand_of_engineView rfl)
  | reset => exact absurd rfl hx

/-! The agents (R130, R147). -/

/-- A tick is the step of the enabled agent. -/
theorem tick_eq_freeRun (h : s.pend = none ∨ s.silent = false) : tick s = freeRun s := by
  simp only [tick, freeRun, agentStep]
  rcases h with h | h <;> simp [h]

/-- With the pending request never answered no agent is enabled. -/
theorem tick_silent (hpend : s.pend ≠ none) (hsilent : s.silent = true) : tick s = .next s := by
  obtain ⟨q, hq⟩ := Option.ne_none_iff_exists'.mp hpend
  exact agentStep_silent hq hsilent _

/-- With a command in progress the enabled agent is the adapter if a request is pending, and else the engine. -/
theorem freeRun_busy (hb : s.busy = true) (h : freeRun s = .next t) :
    (∃ q, s.pend = some q ∧ s.silent = false ∧ t = s.adapterStep q) ∨ s.pend = none ∧ engineStep s = .next t := by
  unfold freeRun at h
  cases hq : s.pend with
  | some q =>
    cases hsil : s.silent with
    | true => rw [agentStep_silent hq hsil] at h; cases h
    | false => exact .inl ⟨q, rfl, rfl, (Host.Outcome.next.inj (agentStep_pending hq hsil _ ▸ h)).symm⟩
  | none => exact .inr ⟨rfl, agentStep_busy hq hb _ ▸ h⟩

theorem freeRun_move (h : freeRun s = .next t) : s.AgentMove t :=
  (agentStep_move h).resolve_left fun hstuck => nomatch hstuck

theorem State.SameCommand.of_inputs {rest : List Input} (h : State.SameCommand { s with inputs := rest } t) :
    s.SameCommand t :=
  ⟨⟨h.params, h.ops, h.din, h.work⟩, h.busy, h.dout, h.result, h.pend, h.silent, h.answers⟩

/-- A step of a busy machine, reset excepted, does nothing to the command in progress or is the step of the enabled agent. -/
theorem step_busy (hb : s.busy = true) (hreset : s.inputs.head? ≠ some .reset) (h : step s = .next t) :
    s.SameCommand t ∨ ∃ rest, freeRun { s with inputs := rest } = .next t := by
  cases hin : s.inputs with
  | nil => exact .inr ⟨s.inputs, (step_no_input hin).symm.trans h⟩
  | cons x rest =>
    rw [step_input hin] at h
    have hx : x ≠ .reset := fun hx => hreset (by rw [hin, hx]; rfl)
    obtain hsame | ⟨-, htick⟩ := deliver_busy (s := { s with inputs := rest }) hb hx h
    · exact .inl hsame.of_inputs
    · by_cases hagent : s.pend = none ∨ s.silent = false
      · exact .inr ⟨rest, (tick_eq_freeRun (s := { s with inputs := rest }) hagent).symm.trans htick⟩
      · obtain ⟨hpend, hsilent⟩ := not_or.mp hagent
        rw [tick_silent (s := { s with inputs := rest }) hpend (by simpa using hsilent)] at htick
        exact .inl (Host.Outcome.next.inj htick ▸ State.sameCommand_of_engineView rfl)

end

end Sys2Proof.Machine

/-! PROOFS. Issue (40_command_lifecycle.md R131 to R134, R138, R139): the checks in their order, what a CMD write leaves as it is, and what it starts;
and the hang (R147). -/

namespace Sys2Proof.Machine

/-- A CMD write of a legal word, as the next input or by `withFetchWord`. -/
theorem State.after_cmd_decode {w : Word} {i : Instr} (h : decode w = .ok i) (s : State) :
    s.after (hostWr s.params 0x010 w) = exec i { s with resp := some .accepted } :=
  (s.after_cmd w).trans (issueWord_decode h _)

/-- Settles O5: the access reaches CMD, whose write issues the decoded command. -/
theorem stepRunsTheDecodedCommand : Obligations.StepRunsTheDecodedCommand := by
  constructor
  · intro s rest w i hin hw
    have h := State.after_cmd_decode hw { s with inputs := rest }
    rwa [State.after, ← hin] at h
  · intro s w i hw
    rw [State.withFetchWord, Nat.mod_eq_of_lt w.isLt, BitVec.ofNat_toNat, BitVec.setWidth_eq]
    exact State.after_cmd_decode hw s

/-! What the commands need (30_encoding.md R107). -/

section
variable {i : Instr} (h : i ≠ .clear)
include h

theorem commandNeeds_kIn : (commandNeeds i).kIn = true := by
  cases i with
  | clear => exact absurd rfl h
  | _ => rfl

theorem commandNeeds_ksn : (commandNeeds i).ksn = true ↔ i ≠ .generateKey ∧ i ≠ .encryptRegister := by
  cases i with
  | clear => exact absurd rfl h
  | _ => simp [commandNeeds, Needs.key, Needs.register, Needs.message]

theorem commandNeeds_reg : (commandNeeds i).reg = true ↔ i = .generateKey ∨ i = .encryptRegister := by
  cases i with
  | clear => exact absurd rfl h
  | _ => simp [commandNeeds, Needs.key, Needs.register, Needs.message]

theorem commandNeeds_data : (commandNeeds i).data = true ↔ ∃ v, i = .encrypt v ∨ i = .decrypt v := by
  cases i with
  | clear => exact absurd rfl h
  | _ => simp [commandNeeds, Needs.key, Needs.register, Needs.message]

end

/-! The checks of issue (R133), in their order. -/

theorem Operands.kinV_iff (o : Operands) : o.kinV = true ↔ o.kinWm = 0b1111#4 := beq_iff_eq

theorem Operands.ksnV_iff (o : Operands) : o.ksnV = true ↔ o.ksnWm = 0b111#3 := beq_iff_eq

theorem Operands.regV_iff (o : Operands) : o.regV = true ↔ o.regWm = 0b11#2 := beq_iff_eq

section
variable {s : State} {n : Needs}

theorem State.issueError_kIn (hn : n.kIn = true) (h : ¬s.ops.kinV = true) : s.issueError n = some .invalidArgument := by
  simp [State.issueError, hn, h]

section
variable (hkin : s.ops.kinV = true)
include hkin

theorem State.issueError_ksn (hn : n.ksn = true) (h : ¬s.ops.ksnV = true) : s.issueError n = some .invalidArgument := by
  simp [State.issueError, hkin, hn, h]

theorem State.issueError_reg (hn : n.reg = true) (h : ¬s.ops.regV = true) : s.issueError n = some .invalidArgument := by
  simp_all [State.issueError]

variable (hksn : n.ksn = true → s.ops.ksnV = true) (hreg : n.reg = true → s.ops.regV = true)
include hksn hreg

/-- With the operands valid the checks are those of LEN, for a command that needs it. -/
theorem State.issueError_operands_valid : s.issueError n = if n.data then s.lenError else none := by
  rw [State.issueError, if_neg (by simp [hkin]), if_neg (by simpa using hksn), if_neg (by simpa using hreg)]

theorem State.issueError_len (hn : n.data = true) : s.issueError n = s.lenError :=
  (State.issueError_operands_valid hkin hksn hreg).trans (if_pos hn)

theorem State.issueError_eq_none (hlen : n.data = true → s.lenError = none) : s.issueError n = none := by
  rw [State.issueError_operands_valid hkin hksn hreg]
  split
  · exact hlen ‹_›
  · rfl

end

theorem State.lenError_zero (h : s.ops.len.toNat = 0) : s.lenError = some .invalidArgument := if_pos h

theorem State.lenError_mod (h : s.ops.len.toNat % 8 ≠ 0) : s.lenError = some .cipherPrecondition := by
  rw [State.lenError, if_neg (by omega), if_pos h]

theorem State.lenError_range (h0 : s.ops.len.toNat ≠ 0) (hmod : s.ops.len.toNat % 8 = 0)
    (h : s.params.dbufBytes < s.ops.len.toNat) : s.lenError = some .lengthRange := by
  rw [State.lenError, if_neg h0, if_neg (not_not_intro hmod), if_pos h]

theorem State.lenError_eq_none (h : s.lenLegal) : s.lenError = none := by
  obtain ⟨hmod, hmin, hmax⟩ := h
  rw [State.lenError, if_neg (by omega), if_neg (not_not_intro hmod), if_neg (by omega)]

end

section
variable {s : State} (hb : s.busy = false)
include hb

/-- A check that fails ends the issue in its error (R133, R137). -/
theorem exec_fails {i : Instr} {e : ErrCode} (he : s.issueError (commandNeeds i) = some e) :
    exec i s = .next (s.issueFailed e i.opcode) := by
  rw [exec_eq_issue, issueCommand_error hb he]
  rfl

/-- With every check passed the command starts (R134). -/
theorem exec_starts {i : Instr} (he : s.issueError (commandNeeds i) = none) :
    exec i s = .next (commandStart i s.clearOnIssue) := by
  rw [exec_eq_issue, issueCommand_go hb he]

/-- An illegal word ends in ILLEGAL_COMMAND (60_exceptions.md R245). -/
theorem State.after_cmd_illegal {w : Word} {e : Illegal} (h : decode w = .error e) :
    s.after (hostWr s.params 0x010 w) =
      .next { s.issueFailed .illegalCommand (w.extractLsb' 0 8) with resp := some .accepted } := by
  rw [s.after_cmd, issueWord_illegal h, issueIllegal_idle (s := s.respond (some .accepted)) hb]
  rfl

end

/-- Settles O8: each clause names the first check that fails. -/
theorem issueChecksInOrder : Obligations.IssueChecksInOrder := by
  intro s hb
  refine ⟨fun w e hw => State.after_cmd_illegal hb hw, fun i => ?_⟩
  dsimp only
  intro hi
  rw [← commandNeeds_ksn hi, ← commandNeeds_reg hi, ← commandNeeds_data hi, ← s.ops.kinV_iff, ← s.ops.ksnV_iff, ← s.ops.regV_iff]
  refine ⟨fun hkin => ?_, fun hkin hksn => ?_, fun hkin _ hreg => ?_, fun hkin hksn hn hlen => ?_, fun hkin hksn hn hlen => ?_,
    fun hkin hksn hn h0 hmod hlen => ?_⟩
  · exact exec_fails hb (State.issueError_kIn (commandNeeds_kIn hi) hkin)
  · obtain ⟨hn, hv⟩ := Classical.not_imp.mp hksn
    exact exec_fails hb (State.issueError_ksn hkin hn hv)
  · obtain ⟨hn, hv⟩ := Classical.not_imp.mp hreg
    exact exec_fails hb (State.issueError_reg hkin hn hv)
  all_goals
    have hreg : (commandNeeds i).reg = true → s.ops.regV = true := by
      obtain ⟨v, rfl | rfl⟩ := (commandNeeds_data hi).mp hn <;> exact fun h => nomatch h
    have hcheck := State.issueError_len hkin hksn hreg hn
  · exact exec_fails hb (hcheck.trans (State.lenError_zero hlen))
  · exact exec_fails hb (hcheck.trans (State.lenError_mod hlen))
  · exact exec_fails hb (hcheck.trans (State.lenError_range h0 hmod hlen))

/-- The KSN register at the start of the walk is KSN[63:21] above zeroes (41_ipek_walk.md R165). -/
theorem walkKsnReg_eq (ksn : Ksn) : walkKsnReg ksn = ksn.setWidth 64 &&& 0xFFFFFFFFFFE00000#64 := by
  have hones : ls16Mask.setWidth 64 = BitVec.allOnes 64 := by decide
  rw [walkKsnReg, BitVec.setWidth_and, hones, BitVec.and_allOnes, BitVec.setWidth_setWidth_of_le _ (by decide), reg8Mask]

/-- Settles O6: with every check passed the command starts, field by field. -/
theorem acceptedCommandStarts : Obligations.AcceptedCommandStarts := by
  intro s hb hkin
  dsimp only
  rw [← s.ops.kinV_iff] at hkin
  rw [← s.ops.ksnV_iff, ← s.ops.regV_iff, ← walkKsnReg_eq]
  refine ⟨fun hksn => ?_, fun hreg => ?_⟩
  · have starts (i : Instr) (hreg : (commandNeeds i).reg = false) (hlen : (commandNeeds i).data = true → s.lenError = none) :
        exec i s = .next (commandStart i s.clearOnIssue) :=
      exec_starts hb (State.issueError_eq_none hkin (fun _ => hksn) (fun h => nomatch hreg.symm.trans h) hlen)
    have startsKey (i : Instr) (hn : commandNeeds i = Needs.key) : exec i s = .next (commandStart i s.clearOnIssue) :=
      starts i (by rw [hn]; rfl) fun h => by rw [hn] at h; cases h
    refine ⟨startsKey _ rfl, startsKey _ rfl, startsKey _ rfl, startsKey _ rfl, fun v => startsKey _ rfl,
      fun hmod hmin hmax v => ?_⟩
    have hlen := State.lenError_eq_none ⟨hmod, hmin, hmax⟩
    exact ⟨starts (.encrypt v) rfl fun _ => hlen, starts (.decrypt v) rfl fun _ => hlen⟩
  · have starts (i : Instr) (hn : commandNeeds i = Needs.register) : exec i s = .next (commandStart i s.clearOnIssue) :=
      exec_starts hb (State.issueError_eq_none hkin (fun h => by rw [hn] at h; cases h) (fun _ => hreg)
        fun h => by rw [hn] at h; cases h)
    exact ⟨starts _ rfl, starts _ rfl⟩

/-! Writes while busy (R139). -/

/-- Settles O10: R31's map sends each offset to its register, which ignores the write, or to CTRL or STATUS. -/
theorem writesWhileBusyAreIgnored : Obligations.WritesWhileBusyAreIgnored := by
  intro s d hb hdbuf
  dsimp only
  have writes {off : Nat} (t : Target) {u : State} (hoff : off < 0x800) (halign : off % 4 = 0)
      (ht : registerMap.lookup off = some t) (hcmd : t ≠ .cmd) (hu : s.writeTarget t d = u) :
      s.after (hostWr s.params off d) = .next { u with resp := some .accepted } :=
    hu ▸ s.after_hostWr_register hoff halign ht hcmd d
  have busy := State.unlessBusy_busy hb
  refine ⟨?cmd, writes .len (by decide) rfl rfl (by decide) (busy _), ?operands, fun k halign hk => ?din,
    writes .ctrl (by decide) rfl rfl (by decide) rfl, writes .status (by decide) rfl rfl (by decide) (s.writeStatus_eq d),
    ?readOnly, fun k halign hk => ?dout, fun i => ?exec⟩
  case cmd => exact (s.after_cmd d).trans (issueWord_busy (s := s.respond (some .accepted)) hb d)
  case operands =>
    simp only [List.forall_mem_cons, List.not_mem_nil, false_implies, implies_true, and_true]
    exact ⟨writes (.kIn 0) (by decide) rfl rfl (by decide) (busy _), writes (.kIn 1) (by decide) rfl rfl (by decide) (busy _),
      writes (.kIn 2) (by decide) rfl rfl (by decide) (busy _), writes (.kIn 3) (by decide) rfl rfl (by decide) (busy _),
      writes (.ksn 0) (by decide) rfl rfl (by decide) (busy _), writes (.ksn 1) (by decide) rfl rfl (by decide) (busy _),
      writes (.ksn 2) (by decide) rfl rfl (by decide) (busy _), writes (.reg 0) (by decide) rfl rfl (by decide) (busy _),
      writes (.reg 1) (by decide) rfl rfl (by decide) (busy _)⟩
  case din =>
    rw [s.after_hostWr (by omega) (by omega) (targetAt_din hk) (fun h => nomatch h) d, State.writeTarget, busy]
    rfl
  case readOnly => exact (readOnlyAndWriteOnly s d hdbuf).1
  case dout => exact (readOnlyAndWriteOnly s d hdbuf).2.1 k halign hk
  case exec => rw [exec_eq_issue, issueCommand_busy hb]; rfl

/-! The frame of issue, and the scrubbing of the completions (R132 to R134, R138). -/

/-- Settles O11: each thing that a CMD write can do has the frame. -/
theorem issueFrame : Obligations.IssueFrame := by
  intro i s t hi hs
  obtain ⟨hb, hx⟩ | ⟨e, hb, -, hx⟩ | ⟨hb, -, hx⟩ := exec_cases i s
  · obtain rfl := Host.Outcome.next.inj (hx.symm.trans hs)
    exact ⟨rfl, rfl, rfl, rfl, rfl, rfl, rfl, fun _ => rfl, fun hb' => absurd (hb.symm.trans hb') (by decide),
      fun _ => ⟨rfl, hb, rfl, rfl, rfl, rfl, rfl, rfl, rfl, fun _ => rfl⟩⟩
  · obtain rfl := Host.Outcome.next.inj (hx.symm.trans hs)
    exact ⟨rfl, rfl, rfl, rfl, rfl, rfl, rfl, fun _ => rfl, fun _ => ⟨rfl, rfl, rfl, fun _ => rfl⟩,
      fun hb' => absurd (hb.symm.trans hb') (by decide)⟩
  · obtain rfl := Host.Outcome.next.inj (hx.symm.trans hs)
    cases i with
    | clear => exact absurd rfl hi
    | _ =>
      exact ⟨rfl, rfl, rfl, rfl, rfl, rfl, rfl, fun _ => rfl, fun _ => ⟨rfl, rfl, rfl, fun _ => rfl⟩,
        fun hb' => absurd (hb.symm.trans hb') (by decide)⟩

/-- Everything is scrubbed, the answers of the phase action included (R138). -/
def State.Scrubbed (s : State) : Prop := s.work = Working.scrubbed ∧ s.answers = []

/-- Only CLEAR is done within its issue; every other command leaves BUSY set (R134; 44_control.md R230). -/
theorem commandStart_scrubs {i : Instr} {s : State} (h : (commandStart i s).busy = false) : (commandStart i s).Scrubbed := by
  cases i with
  | clear => exact ⟨rfl, rfl⟩
  | _ => cases h

theorem issueWord_scrubs {w : Word} {s t : State} (hb : s.busy = false) (hs : issueWord w s = .next t)
    (ht : t.busy = false) : t.Scrubbed := by
  obtain ⟨hb', -⟩ | ⟨-, e, failOp, hx⟩ | ⟨-, i, -, -, hx⟩ := issueWord_cases w s
  · exact absurd (hb.symm.trans hb') (by decide)
  · exact Host.Outcome.next.inj (hx.symm.trans hs) ▸ ⟨rfl, rfl⟩
  · obtain rfl := Host.Outcome.next.inj (hx.symm.trans hs)
    exact commandStart_scrubs ht

section
variable {s t : State} (hb : s.busy = true)
include hb

/-- A move of engine or adapter that ends the command scrubs, and leaves nothing pending, and DONE or ERR set (R136 to R138). -/
theorem State.AgentMove.ends_command (h : s.AgentMove t) (ht : t.busy = false) :
    t.Scrubbed ∧ t.pend = none ∧ (t.done = true ∨ t.err = true) := by
  cases h with
  | answers | sends | idle => exact absurd (hb.symm.trans ht) (by decide)
  | fails => exact ⟨⟨rfl, rfl⟩, rfl, .inr rfl⟩
  | ends hpend _ hend =>
    cases hend with
    | goesOn => exact absurd (hb.symm.trans ht) (by decide)
    | completes => exact ⟨⟨rfl, rfl⟩, hpend, .inl rfl⟩

/-- A step that ends a command in progress scrubs, a reset included. -/
theorem step_ends_command (hs : step s = .next t) (ht : t.busy = false) : t.Scrubbed ∧ t.pend = none := by
  by_cases hreset : s.inputs.head? = some .reset
  · obtain ⟨rest, hin⟩ : ∃ rest, s.inputs = .reset :: rest := List.head?_eq_some_iff.mp hreset
    rw [step_input hin] at hs
    exact Host.Outcome.next.inj hs ▸ ⟨⟨rfl, rfl⟩, rfl⟩
  · obtain same | ⟨rest, hrun⟩ := step_busy hb hreset hs
    · exact absurd (same.busy.symm.trans ht) (by simp [hb])
    · obtain ⟨hscrub, hpend, -⟩ := State.AgentMove.ends_command (s := { s with inputs := rest }) hb (freeRun_move hrun) ht
      exact ⟨hscrub, hpend⟩

end

/-- Settles O41: the ends of a command in progress scrub, and so does every CMD write that starts none. -/
theorem completionScrubs : Obligations.CompletionScrubs := by
  refine ⟨fun s t hb hs ht => ?_, fun w s t hb hs ht => ?_, fun i s t hb hs ht => ?_⟩
  · obtain ⟨⟨hwork, hanswers⟩, hpend⟩ := step_ends_command hb hs ht
    exact ⟨hwork, hpend, hanswers⟩
  · exact issueWord_scrubs (s := s.respond (some .accepted)) hb ((s.after_cmd w).symm.trans hs) ht
  · exact (issueWord_scrubs hb ((issueWord_decode (decode_encode i) s).trans hs) ht).1

/-! The hang (R147). -/

/-- Settles O22: with the pending request never answered no agent is enabled, and no input but reset reaches the command. -/
theorem hangUntilReset : Obligations.HangUntilReset := by
  intro s q hb hpend
  refine ⟨congrArg Host.Outcome.next (State.leaveUnanswered_pending hpend), fun hsilent => ?_⟩
  refine ⟨fun x t hx hs => ?_, fun w => ?_, ⟨s.blockReset, rfl, rfl, rfl, rfl⟩, fun hin => ?_⟩
  · have same : s.SameCommand t := by
      obtain same | ⟨-, htick⟩ := deliver_busy hb hx hs
      · exact same
      · rw [tick_silent (by simp [hpend]) hsilent] at htick
        exact Host.Outcome.next.inj htick ▸ State.sameCommand_of_engineView rfl
    exact ⟨same.busy.trans hb, same.pend.trans hpend, same.silent hsilent, same.work, same.answers⟩
  · exact (s.after_cmd w).trans (issueWord_busy (s := s.respond (some .accepted)) hb w)
  · exact (step_no_input hin).trans (agentStep_silent hpend hsilent _)

end Sys2Proof.Machine

/-! PROOFS. The outcome of a command (40_command_lifecycle.md R148, R149). What the command in progress still computes is its phase action and then
what the state that the action ends in computes; so a step of the engine keeps it, the adapter's answer is the answer to its first request, and the
command ends with its value or with the failure of a request. -/

namespace Sys2Proof.Machine

section
variable {α β : Type}

/-- Two continuations alike on the values of a computation give the same computation. -/
theorem Prog.bind_congr {p : Prog α} {f g : α → Prog β} (h : ∀ a, p.Yields a → f a = g a) : p.bind f = p.bind g := by
  induction p with
  | ret a => exact h a rfl
  | call q k ih =>
    simp only [Prog.call_bind]
    congr 1
    funext r
    exact ih r fun a ha => h a ⟨r, ha⟩

/-- Answers to requests of the first part resume the first part. -/
theorem Prog.resume_bind {p : Prog α} {rs : List Block} (h : p.fits rs) (f : α → Prog β) :
    (p.bind f).resume rs = (p.resume rs).bind f := by
  induction rs generalizing p with
  | nil => rfl
  | cons r rs ih =>
    cases p with
    | ret a => exact h.elim
    | call q k => exact ih (p := k r) h

end

/-- One iteration of the walk moves the cursor by one bit (R167). -/
theorem walkIteration_sr {ksn : Ksn} {w w' : WalkRegs} (h : (walkIteration ksn w).Yields w') : w'.sr = w.sr >>> 1 := by
  unfold walkIteration at h
  split at h
  · obtain ⟨_, -, hw⟩ := (Prog.yields_bind _ _ _).mp h
    rw [(Prog.yields_ret _ _).mp hw]
  · rw [(Prog.yields_ret _ _).mp h]

theorem cursor_shift_toNat (sr : Cursor) : (sr >>> 1).toNat = sr.toNat / 2 := by
  simp [BitVec.toNat_ushiftRight, Nat.shiftRight_eq_div_pow]

/-- The iterations still to come are counted by the place of the cursor's bit (R165). -/
theorem log2_shift {sr : Cursor} (h : sr >>> 1 ≠ 0) : sr.toNat.log2 = (sr >>> 1).toNat.log2 + 1 := by
  have hsr : (sr >>> 1).toNat ≠ 0 := fun h0 => h (BitVec.eq_of_toNat_eq h0)
  rw [cursor_shift_toNat] at hsr ⊢
  rw [Nat.log2_def, if_pos (by omega)]

theorem log2_last {sr : Cursor} (h : sr >>> 1 = 0) : sr.toNat.log2 = 0 := by
  have hsr : sr.toNat / 2 = 0 := by rw [← cursor_shift_toNat, h]; rfl
  rw [Nat.log2_def, if_neg (by omega)]

/-- What the command in progress in `s` still computes once a phase action of it has ended in `o`: what `o`'s phase computes, or, at
its completion, what the registers deliver. No phase action of a legal state ends in a fault. -/
def State.restAfter (s : State) (o : StepOutcome) : Prog Completion :=
  match o with
  | .next t => if t.busy then t.rest else .ret (if s.work.ph = .data then .message t.dout else .key t.result)
  | .fault _ => .ret .nothing
  | .refused _ => .ret .nothing

section
variable {s : State}

theorem State.restAfter_goesOn {t : State} (h : t.busy = true) : s.restAfter (.next t) = t.rest := by
  simp [State.restAfter, h]

theorem State.restAfter_key (hph : s.work.ph ≠ .data) (t : State) (k : Key) :
    s.restAfter (.next (t.complete (some k))) = .ret (.key k) := by
  simp [State.restAfter, hph]

theorem State.restAfter_message (hph : s.work.ph = .data) (t : State) :
    s.restAfter (.next (t.complete none)) = .ret (.message t.dout) := by
  simp [State.restAfter, hph]

/-- The operation codes of the commands that go on after the walk, as R168 compares them. -/
theorem opcode_bounds_of_walks {opc : BitVec 8} (h : opc ∈ [0x02#8, 0x05#8, 0x06#8, 0x07#8, 0x08#8, 0x09#8])
    (hderive : opc ≠ 0x02) : 5 ≤ opc.toNat ∧ opc.toNat ≤ 9 := by
  simp only [List.mem_cons, List.not_mem_nil, or_false] at h
  rcases h with h | h | h | h | h | h
  · exact absurd h hderive
  all_goals simp [h]

/-- The end of the walk (41_ipek_walk.md R168; 42_session_variants.md R197). -/
theorem State.restAfter_afterWalk (hph : s.work.ph ≠ .data) {t : State} (hb : t.busy = true)
    (hopc : t.work.opc ∈ [0x02#8, 0x05#8, 0x06#8, 0x07#8, 0x08#8, 0x09#8]) :
    s.restAfter t.afterWalk = walkRest t t.work.cur := by
  unfold State.afterWalk walkRest
  split
  · exact State.restAfter_key hph _ _
  · rename_i hderive
    rw [if_pos (opcode_bounds_of_walks hopc hderive)]
    unfold State.variantStep
    split
    · rename_i hpin
      dsimp only
      split
      · rename_i hkey
        rw [State.restAfter_key hph]
        rcases hkey with h | h <;> simp [sessionRest, h]
      · rename_i hkey
        rw [State.restAfter_goesOn (by exact hb), sessionRest, if_pos]
        · rfl
        · simp_all [Working.pinPath]
    · exact State.restAfter_goesOn (by exact hb)

/-- BI does not overflow within a message. -/
theorem blockIndex_succ {bi len : BitVec 16} (h : bi.toNat < len.toNat / 8) : (bi + 1).toNat = bi.toNat + 1 := by
  have := len.isLt
  rw [BitVec.toNat_add, show (1 : BitVec 16).toNat = 1 from rfl]
  omega

/-- The end of a DATA step (43_data_cipher.md R213, R214). -/
theorem State.restAfter_dataBlock (hph : s.work.ph = .data) (hb : s.busy = true)
    (hbi : s.work.bi.toNat < s.ops.len.toNat / 8) (out chain : Block) :
    s.restAfter (.next (s.dataBlock out chain)) =
      messageRest s s.work.sk chain (s.work.bi.toNat + 1) (s.dout.write64 (8 * s.work.bi.toNat) out) := by
  have hnext := blockIndex_succ hbi
  unfold State.dataBlock
  dsimp only
  split
  · rename_i hlast
    rw [State.restAfter_message hph]
    rw [hnext] at hlast
    simp [messageRest, ← hlast, Memory.blocks, cbcEncrypt, cbcDecrypt, Memory.writeBlocks]
  · rw [State.restAfter_goesOn (by exact hb)]
    simp only [State.rest, hph, hnext]
    rfl

/-- The next block of a message (43_data_cipher.md R213, R214). -/
theorem messageRest_next (sk : Key) (cv : Block) {bi : Nat} (hbi : bi < s.ops.len.toNat / 8) (dout : Memory) :
    messageRest s sk cv bi dout =
      if s.work.opc = 0x08 then
        .call (.tdesE sk (s.din.read64 (8 * bi) ^^^ cv)) fun c => messageRest s sk c (bi + 1) (dout.write64 (8 * bi) c)
      else
        .call (.tdesD sk (s.din.read64 (8 * bi))) fun r =>
          messageRest s sk (s.din.read64 (8 * bi)) (bi + 1) (dout.write64 (8 * bi) (r ^^^ cv)) := by
  have hblocks : s.din.blocks bi (s.ops.len.toNat / 8 - bi) =
      s.din.read64 (8 * bi) :: s.din.blocks (bi + 1) (s.ops.len.toNat / 8 - (bi + 1)) := by
    rw [show s.ops.len.toNat / 8 - bi = s.ops.len.toNat / 8 - (bi + 1) + 1 by omega, Memory.blocks]
  unfold messageRest
  dsimp only
  rw [hblocks]
  split
  · simp only [cbcEncrypt, Prog.call_bind, Prog.bind_assoc]
    rfl
  · simp only [cbcDecrypt, Prog.call_bind, Prog.bind_assoc]
    rfl

/-- A walk that starts computes deriveKey, and then what follows it (R165, R166). -/
theorem State.rest_of_walkInit {t : State} (hph : t.work.ph = .walk) (hsr : t.work.sr = shiftRegMask)
    (hkreg : t.work.kreg = walkKsnReg t.ops.ksn) : t.rest = (deriveKey t.work.cur t.ops.ksn).bind (walkRest t) := by
  have hcount : shiftRegMask.toNat.log2 + 1 = 21 := by decide
  simp only [State.rest, hph, hsr, hkreg, hcount, deriveKey, Prog.bind_assoc, Prog.ret_bind]

/-- A legal phase DATA has a block of the message before it, inside the buffers (43_data_cipher.md R213, R214; 20_memory.md R82). -/
theorem State.data_of_phaseLegal (hph : s.work.ph = .data) (hphase : s.phaseLegal)
    (hlen : s.work.opc ∈ [0x08#8, 0x09#8] → s.lenLegal) :
    (s.work.opc = 0x08 ∨ s.work.opc = 0x09) ∧ s.work.bi.toNat < s.ops.len.toNat / 8 ∧
      8 * s.work.bi.toNat + 8 ≤ s.params.dbufBytes := by
  simp only [State.phaseLegal, hph] at hphase
  obtain ⟨hopc, hbi, -⟩ := hphase
  obtain ⟨-, -, hmax⟩ := hlen hopc
  exact ⟨by simpa using hopc, hbi, by omega⟩

section
variable (hbuf : 8 * s.work.bi.toNat + 8 ≤ s.params.dbufBytes)
include hbuf

theorem phaseData_encrypt (hopc : s.work.opc = 0x08) :
    phaseData s = .call (.tdesE s.work.sk (s.din.read64 (8 * s.work.bi.toNat) ^^^ s.work.cv)) fun c =>
      .ret (.next (s.dataBlock c c)) := by
  simp [phaseData, hbuf, hopc]

theorem phaseData_decrypt (hopc : s.work.opc = 0x09) :
    phaseData s = .call (.tdesD s.work.sk (s.din.read64 (8 * s.work.bi.toNat))) fun r =>
      .ret (.next (s.dataBlock (r ^^^ s.work.cv) (s.din.read64 (8 * s.work.bi.toNat)))) := by
  simp [phaseData, hbuf, hopc]

end

/-- The computation of a command in progress is its phase action, and then what the state it ends in computes (R135, R148). -/
theorem State.rest_eq (hb : s.busy = true) (hphase : s.phaseLegal) (hlen : s.work.opc ∈ [0x08#8, 0x09#8] → s.lenLegal) :
    s.rest = (phaseAction s).bind s.restAfter := by
  unfold State.rest phaseAction
  cases hph : s.work.ph with
  | idle => simp [State.phaseLegal, hph] at hphase
  | ipekL =>
    simp only [phaseIpekL, createIPEK, Prog.call_bind, Prog.ret_bind]
    congr 1
    funext c
    rw [State.restAfter_goesOn (by exact hb)]
    rfl
  | ipekR =>
    simp only [phaseIpekR, Prog.call_bind]
    congr 1
    funext c
    unfold ipekRest
    split
    · exact (State.restAfter_key (by simp [hph]) _ _).symm
    · rw [Prog.ret_bind, State.restAfter_goesOn (by exact hb)]
      symm
      apply State.rest_of_walkInit <;> rfl
  | walk =>
    simp only [State.phaseLegal, hph] at hphase
    simp only [phaseWalk, walkIterations, Prog.bind_assoc, Prog.ret_bind]
    refine Prog.bind_congr fun w hw => ?_
    have hsr := walkIteration_sr hw
    split
    · rename_i hlast
      rw [log2_last (hsr ▸ hlast), walkIterations, Prog.ret_bind]
      symm
      apply State.restAfter_afterWalk
      · simp [hph]
      · exact hb
      · exact hphase.1
    · rename_i hmore
      dsimp only at hsr
      rw [State.restAfter_goesOn (by exact hb), log2_shift (hsr ▸ hmore), ← hsr]
      simp only [State.rest, hph]
      rfl
  | dekL =>
    simp only [phaseDekL, diversify, Prog.call_bind, Prog.ret_bind]
    congr 1
    funext c
    rw [State.restAfter_goesOn (by exact hb)]
    rfl
  | dekR =>
    simp only [State.phaseLegal, hph] at hphase
    simp only [phaseDekR, Prog.call_bind]
    congr 1
    funext c
    split
    · rename_i hkey
      rw [Prog.ret_bind, State.restAfter_key (by simp [hph])]
      rcases hkey with hkey | hkey <;> simp [sessionRest, hkey]
    · rename_i hkey
      rw [Prog.ret_bind, State.restAfter_goesOn (by exact hb), sessionRest, if_pos (by simp_all)]
      rfl
  | data =>
    obtain ⟨hopc, hbi, hbuf⟩ := State.data_of_phaseLegal hph hphase hlen
    have ends := State.restAfter_dataBlock hph hb hbi
    dsimp only
    rw [messageRest_next _ _ hbi]
    rcases hopc with hopc | hopc
    · simp only [phaseData_encrypt hbuf hopc, hopc, if_true, Prog.call_bind, Prog.ret_bind, ends]
    · rw [phaseData_decrypt hbuf hopc, if_neg (by simp [hopc])]
      simp only [Prog.call_bind, Prog.ret_bind, ends]
  | gen | ereg =>
    simp only [phaseGen, phaseEreg, Prog.bind_assoc, Prog.ret_bind, State.restAfter_key (s := s) (by simp [hph])]

end

/-! One step of a command in progress (R141, R148). -/

/-- What the command in progress still computes, with the answers its phase action has had. -/
def State.remaining (s : State) : Prog Completion := s.rest.resume s.answers

theorem State.expected_eq (s : State) : s.expected = s.remaining.eval s.adapter := rfl

theorem State.requestsToCome_eq (s : State) : s.requestsToCome = s.remaining.requests s.adapter := rfl

section
variable {s t : State}

theorem State.SameCommand.remaining_eq (h : s.SameCommand t) : t.remaining = s.remaining := by
  obtain ⟨⟨-, hops, hdin, hwork⟩, -, hdout, -, -, -, hanswers⟩ := h
  have hmessage : messageRest t = messageRest s := by funext sk cv bi m; simp only [messageRest, hwork, hops, hdin]
  have hsession : sessionRest t = sessionRest s := by funext sk; simp only [sessionRest, hwork, hmessage, hdout]
  have hwalk : walkRest t = walkRest s := by funext k; simp only [walkRest, hwork, hsession]
  have hipek : ipekRest t = ipekRest s := by funext k; simp only [ipekRest, hwork, hwalk, hops]
  simp only [State.remaining, State.rest, hmessage, hsession, hwalk, hipek, hwork, hops, hdout, hanswers]

theorem State.dataBlock_result (s : State) (out chain : Block) : (s.dataBlock out chain).result = s.result := by
  unfold State.dataBlock
  dsimp only
  split <;> rfl

/-- The phase DATA ends in a DATA step (43_data_cipher.md R213, R214). -/
theorem State.AtAction.data_yields (h : s.AtAction) (hph : s.work.ph = .data) {o : StepOutcome} (hy : (phaseAction s).Yields o) :
    ∃ out chain, o = .next (s.dataBlock out chain) := by
  have run := h.legal.running h.busy
  obtain ⟨hopc, -, hbuf⟩ := State.data_of_phaseLegal hph run.phase run.length
  simp only [phaseAction, hph] at hy
  rcases hopc with hopc | hopc
  · rw [phaseData_encrypt hbuf hopc] at hy
    obtain ⟨c, hc⟩ := hy
    exact ⟨_, _, hc⟩
  · rw [phaseData_decrypt hbuf hopc] at hy
    obtain ⟨r, hr⟩ := hy
    exact ⟨_, _, hr⟩

/-- A normal completion shows what it delivers (R136). -/
theorem State.AtAction.shows (h : s.AtAction) (hy : (phaseAction s).Yields (.next t)) (ht : t.busy = false) (opc : BitVec 8) :
    t.shows opc (.ok (if s.work.ph = .data then .message t.dout else .key t.result)) := by
  have run := h.legal.running h.busy
  obtain ⟨-, herr, hresult⟩ := run.flags
  obtain ⟨hcode, hop, hx⟩ := h.legal.noError_of_busy h.busy
  have hdata (hph : s.work.ph = .data) : t.result = 0 := by
    obtain ⟨out, chain, ho⟩ := h.data_yields hph hy
    rw [Host.Outcome.next.inj ho, State.dataBlock_result, hresult]
  cases State.ActionEnd.of_yields hy with
  | goesOn => exact absurd (h.busy.symm.trans ht) (by decide)
  | completes w hm v =>
    split
    · rename_i hph
      exact ⟨rfl, herr, hcode, hop, hx, hdata hph, rfl⟩
    · rename_i hph
      obtain rfl | ⟨hph', -⟩ := hm
      · exact ⟨rfl, herr, hcode, hop, hx, rfl, run.noOutput hph⟩
      · exact absurd hph' hph

/-- What a step, reset excepted, can do to a command in progress in `s`: leave what it computes and its pending request as they are
(a request it sends is the next one); answer the pending request; fail it; or deliver. -/
inductive State.Progress (s t : State) : Prop
  | keeps (hrem : t.remaining = s.remaining) (hparams : t.params = s.params) (hb : t.busy = true)
    (hpend : ∀ q, s.pend = some q → t.pend = some q)
  | answers {q : Request} {r : Block} {k : Block → Prog Completion} (hpend : s.pend = some q) (hr : s.adapter q = .ok r)
    (hrem : s.remaining = .call q k) (hrem' : t.remaining = k r) (hparams : t.params = s.params) (hb : t.busy = true)
    (hpend' : t.pend = none)
  | fails {q : Request} {x : FailCode} {k : Block → Prog Completion} (hx : s.adapter q = .fail x)
    (hrem : s.remaining = .call q k) (hb : t.busy = false) (hshows : t.shows s.work.opc (.error x))
  | delivers {c : Completion} (hrem : s.remaining = .ret c) (hb : t.busy = false) (hshows : t.shows s.work.opc (.ok c))

theorem State.Progress.of_inputs {rest : List Input} (h : State.Progress { s with inputs := rest } t) : s.Progress t := by
  cases h with
  | keeps hrem hparams hb hpend => exact .keeps hrem hparams hb hpend
  | answers hpend hr hrem hrem' hparams hb hpend' => exact .answers hpend hr hrem hrem' hparams hb hpend'
  | fails hx hrem hb hshows => exact .fails hx hrem hb hshows
  | delivers hrem hb hshows => exact .delivers hrem hb hshows

theorem State.SameCommand.progress (hb : s.busy = true) (same : s.SameCommand t) : s.Progress t :=
  .keeps same.remaining_eq same.params (same.busy.trans hb) fun _ hq => same.pend.trans hq

theorem State.portLegal.resume_of_pend (h : s.portLegal) {q : Request} (hpend : s.pend = some q) :
    ∃ k, (phaseAction { s with answers := [] }).resume s.answers = .call q k :=
  (Prog.resume_shape_eq_call_iff _ _ _).mp (((State.portLegal_iff s).mp h).2 q hpend)

variable (h : s.Legal) (hb : s.busy = true)
include h hb

/-- What a command in progress still computes is the rest of its phase action, and then what follows. -/
theorem State.Legal.remaining_eq :
    s.remaining = ((phaseAction { s with answers := [] }).resume s.answers).bind (State.restAfter { s with answers := [] }) := by
  have run := h.running hb
  rw [← Prog.resume_bind run.port.1, ← State.rest_eq (s := { s with answers := [] }) hb run.phase run.length]
  rfl

/-- The pending request is the next of what the command still computes (R141). -/
theorem State.Legal.remaining_of_pend {q : Request} (hpend : s.pend = some q) : ∃ k, s.remaining = .call q k := by
  obtain ⟨k, hk⟩ := (h.running hb).port.resume_of_pend hpend
  exact ⟨_, by rw [h.remaining_eq hb, hk, Prog.call_bind]⟩

/-- The adapter's step on the pending request (R141, R143). -/
theorem State.Legal.progress_adapterStep {q : Request} (hpend : s.pend = some q) : s.Progress (s.adapterStep q) := by
  obtain ⟨k, hk⟩ := h.remaining_of_pend hb hpend
  obtain ⟨r, hr, ht⟩ | ⟨x, hx, ht⟩ := s.adapterStep_cases q
  · rw [ht]
    refine .answers hpend hr hk ?_ rfl hb rfl
    have hmore : s.rest.resume (s.answers ++ [r]) = k r := by
      rw [Prog.resume_append, show s.rest.resume s.answers = .call q k from hk]
      rfl
    exact hmore
  · rw [ht]
    exact .fails hx hk rfl ⟨(h.running hb).flags.1, rfl, rfl, rfl, rfl, rfl, rfl⟩

/-- The engine's step (R135, R141). -/
theorem State.Legal.progress_engineStep (hpend : s.pend = none) (hs : Machine.engineStep s = .next t) : s.Progress t := by
  obtain ⟨q, k, hk, hx⟩ | ⟨o, ho, hx⟩ := engineStep_cases s
  · obtain rfl := Host.Outcome.next.inj (hx.symm.trans hs)
    exact .keeps rfl rfl hb fun _ hq => nomatch hpend.symm.trans hq
  · obtain rfl : o = .next t := hx.symm.trans hs
    have hat := h.atAction hb hpend
    have hy := Prog.yields_of_resume ho
    have hrem := h.remaining_eq hb
    rw [ho, Prog.ret_bind] at hrem
    cases ht : t.busy with
    | true =>
      rw [State.restAfter_goesOn ht] at hrem
      obtain ⟨hparams, hans⟩ : t.params = s.params ∧ t.answers = [] := by
        cases State.ActionEnd.of_yields hy <;> exact ⟨rfl, rfl⟩
      refine .keeps ?_ hparams ht fun _ hq => nomatch hpend.symm.trans hq
      rw [State.remaining, hans, hrem]
      rfl
    | false =>
      simp only [State.restAfter, ht] at hrem
      exact .delivers hrem ht (hat.shows hy ht s.work.opc)

/-- Every step but a reset makes progress, or leaves the command as it is, whatever the host does. -/
theorem State.Legal.progress (hreset : s.inputs.head? ≠ some .reset) (hs : step s = .next t) : s.Progress t := by
  obtain same | ⟨rest, hrun⟩ := step_busy hb hreset hs
  · exact same.progress hb
  · have hlegal := h.hostFields s.irqEn s.wrIgn rest s.resp
    obtain ⟨q, hpend, -, rfl⟩ | ⟨hpend, hengine⟩ := freeRun_busy (s := { s with inputs := rest }) hb hrun
    · exact (hlegal.progress_adapterStep hb hpend).of_inputs
    · exact (hlegal.progress_engineStep hb hpend hengine).of_inputs

end

/-- Settles O32: a step keeps what the command computes, answers its next request as the adapter does, or ends the command with
the value or the failure that it computes. -/
theorem outcomeHoldsForEverySchedule : Obligations.OutcomeHoldsForEverySchedule := by
  intro s t h hb hreset hs
  simp only [State.expected_eq, State.adapter]
  cases h.progress hb hreset hs with
  | keeps hrem hparams ht =>
    refine ⟨fun _ => by rw [hrem, hparams], fun ht' => ?_⟩
    exact absurd (ht.symm.trans ht') (by decide)
  | answers hpend hr hrem hrem' hparams ht =>
    refine ⟨fun _ => ?_, fun ht' => absurd (ht.symm.trans ht') (by decide)⟩
    have hr' := hr
    rw [State.adapter] at hr'
    rw [hrem, hrem', hparams, Prog.eval_call, hr']
  | fails hx hrem ht hshows =>
    refine ⟨fun ht' => absurd (ht.symm.trans ht') (by decide), fun _ => ?_⟩
    rw [State.adapter] at hx
    rwa [hrem, Prog.eval_call, hx]
  | delivers hrem ht hshows =>
    refine ⟨fun ht' => absurd (ht.symm.trans ht') (by decide), fun _ => ?_⟩
    rwa [hrem, Prog.eval_ret]

end Sys2Proof.Machine

/-! PROOFS. The outcome at issue, and the order of the requests (40_command_lifecycle.md R143, R148, R150). -/

namespace Sys2Proof.Machine

/-! At issue the command's whole function is still to be computed (R148). -/

section
variable {t : State}

/-- The walk and the variant step are the session key's function, from the IPEK on (42_session_variants.md R190, R192, R197). -/
theorem walkRest_pin (hderive : t.work.opc ≠ 0x02) (hpin : t.work.pinPath = true) (ipek : Key) (ksn : Ksn) :
    (deriveKey ipek ksn).bind (walkRest t) = (createSessionKeyPEK ipek ksn).bind (sessionRest t) := by
  simp only [createSessionKeyPEK, Prog.bind_assoc, Prog.ret_bind]
  congr 1
  funext k
  rw [walkRest, if_neg hderive, if_pos hpin]

theorem walkRest_data (hderive : t.work.opc ≠ 0x02) (hdata : t.work.pinPath = false) (ipek : Key) (ksn : Ksn) :
    (deriveKey ipek ksn).bind (walkRest t) = (createSessionKeyDEK ipek ksn).bind (sessionRest t) := by
  simp only [createSessionKeyDEK, Prog.bind_assoc]
  congr 1
  funext k
  rw [walkRest, if_neg hderive, if_neg (by simp [hdata])]

/-- A session key that is the command's result (42_session_variants.md R191, R194, R196). -/
theorem sessionRest_key (h : ¬(t.work.opc = 0x08 ∨ t.work.opc = 0x09)) : sessionRest t = fun sk => .ret (.key sk) :=
  funext fun _ => if_neg h

/-- From the IPEK phases on, SESSION_KEY, ENCRYPT and DECRYPT compute the session key of their variant (R195, R196). -/
theorem ipekRest_session (hopc : t.work.opc ∈ [0x07#8, 0x08#8, 0x09#8]) (bdk : Key) (ksn : Ksn) (hksn : t.ops.ksn = ksn) :
    (createIPEK bdk ksn).bind (ipekRest t) = (createSessionKey bdk ksn t.work.var).bind (sessionRest t) := by
  rw [createSessionKey, Prog.bind_assoc]
  congr 1
  funext ipek
  have hnot : t.work.opc ≠ 0x01 ∧ t.work.opc ≠ 0x02 ∧ t.work.opc ≠ 0x05 := by
    simp only [List.mem_cons, List.not_mem_nil, or_false] at hopc
    rcases hopc with h | h | h <;> simp [h]
  rw [ipekRest, if_neg hnot.1, hksn]
  cases hv : t.work.var with
  | pin => exact walkRest_pin hnot.2.1 (by simp_all [Working.pinPath, or_assoc]) ipek ksn
  | data => exact walkRest_data hnot.2.1 (by simp_all [Working.pinPath]) ipek ksn

end

/-- ENCRYPT and DECRYPT compute the session key, and then the message from block 0 of an empty DOUT (43_data_cipher.md R212). -/
theorem rest_message {s : State} {opc : BitVec 8} (hopc : opc ∈ [0x08#8, 0x09#8]) (hdout : s.dout = []) (v : Variant) :
    (s.start opc v .ipekL).rest =
      (createSessionKey s.ops.kIn s.ops.ksn v).bind fun sk => messageRest (s.start opc v .ipekL) sk 0 0 [] := by
  refine (ipekRest_session (t := s.start opc v .ipekL) (List.mem_cons_of_mem _ hopc) _ _ rfl).trans ?_
  congr 1
  funext sk
  rw [sessionRest, if_pos (by simpa using hopc), State.start_dout, hdout]

/-- What a started command computes is its function at the operands. -/
theorem rest_commandStart {i : Instr} (hi : i ≠ .clear) {s : State} (hdout : s.dout = []) :
    (commandStart i s).rest = commandProgram i s.ops s.din := by
  cases i with
  | clear => exact absurd rfl hi
  | createIpek | generateKey | encryptRegister => rfl
  | deriveKey => exact State.rest_of_walkInit (t := s.startWalk 0x02) rfl rfl rfl
  | sessionPek =>
    have hkey := sessionRest_key (t := s.startWalk 0x05) (show ¬(0x05#8 = 0x08 ∨ 0x05#8 = 0x09) by decide)
    rw [commandProgram, ← hkey, ← walkRest_pin (show 0x05#8 ≠ 0x02 by decide) rfl]
    exact State.rest_of_walkInit rfl rfl rfl
  | sessionDek =>
    have hkey := sessionRest_key (t := s.startWalk 0x06) (show ¬(0x06#8 = 0x08 ∨ 0x06#8 = 0x09) by decide)
    rw [commandProgram, ← hkey, ← walkRest_data (show 0x06#8 ≠ 0x02 by decide) rfl]
    exact State.rest_of_walkInit rfl rfl rfl
  | sessionKey v =>
    have hkey := sessionRest_key (t := s.start 0x07 v .ipekL) (show ¬(0x07#8 = 0x08 ∨ 0x07#8 = 0x09) by decide)
    rw [commandProgram, ← hkey]
    exact ipekRest_session (t := s.start 0x07 v .ipekL) (show 0x07#8 ∈ [0x07#8, 0x08#8, 0x09#8] by decide) _ _ rfl
  | encrypt v =>
    refine (rest_message (opc := 0x08) (by decide) hdout v).trans ?_
    simp only [commandProgram, encryptMessage, Prog.bind_assoc]
    rfl
  | decrypt v =>
    refine (rest_message (opc := 0x09) (by decide) hdout v).trans ?_
    simp only [commandProgram, decryptMessage, Prog.bind_assoc]
    rfl

/-- An accepted command is busy, and its function is still to be computed, under the same adapter. -/
theorem exec_remaining {s : State} {i : Instr} (h : s.Legal) (hi : i ≠ .clear) (ha : s.accepts i) :
    ∃ t, exec i s = .next t ∧ t.busy = true ∧ t.params = s.params ∧ t.remaining = commandProgram i s.ops s.din := by
  obtain ⟨hb, he⟩ := ha
  refine ⟨_, exec_starts hb he, ?_⟩
  have hrest := rest_commandStart hi (s := s.clearOnIssue) rfl
  have hnone := (h.idle hb).noAnswers
  obtain ⟨hbusy, hparams, hans⟩ : (commandStart i s.clearOnIssue).busy = true ∧ (commandStart i s.clearOnIssue).params = s.params ∧
      (commandStart i s.clearOnIssue).answers = s.answers := by
    cases i with
    | clear => exact absurd rfl hi
    | _ => exact ⟨rfl, rfl, rfl⟩
  exact ⟨hbusy, hparams, by rw [State.remaining, hans, hnone]; exact hrest⟩

/-- Settles O31: the value of what is still to be computed at issue. -/
theorem issueFixesTheOutcome : Obligations.IssueFixesTheOutcome := by
  intro s i h hi ha
  obtain ⟨t, hx, hb, hparams, hrem⟩ := exec_remaining h hi ha
  exact ⟨t, hx, hb, by rw [State.expected_eq, hrem, State.adapter, hparams]; rfl⟩

/-- The pending request is the first of those to come. -/
theorem State.Legal.head_requestsToCome {s : State} (h : s.Legal) (hb : s.busy = true) {q : Request} (hpend : s.pend = some q) :
    s.requestsToCome.head? = some q := by
  obtain ⟨k, hk⟩ := h.remaining_of_pend hb hpend
  rw [State.requestsToCome_eq, hk, Prog.requests]
  split <;> rfl

/-- Settles O33: a step keeps what the command computes, or answers its next request. -/
theorem requestsAreSentInOrder : Obligations.RequestsAreSentInOrder := by
  refine ⟨fun s t i h hi ha hx => ?_, fun s t h hb hreset hs ht => ?_⟩
  · obtain ⟨t', hx', -, hparams, hrem⟩ := exec_remaining h hi ha
    obtain rfl := Host.Outcome.next.inj (hx'.symm.trans hx)
    rw [State.requestsToCome_eq, hrem, State.adapter, hparams]
    rfl
  · cases h.progress hb hreset hs with
    | keeps hrem hparams _ hpend =>
      have hsame : t.requestsToCome = s.requestsToCome := by
        rw [State.requestsToCome_eq, hrem, State.adapter, hparams]
        rfl
      exact .inl ⟨hsame, hpend, fun q hq => hsame ▸ (legalStatesAreKept s t h hs).head_requestsToCome ht hq⟩
    | @answers q r k hpend hr hrem hrem' hparams _ hpend' =>
      refine .inr ⟨q, hpend, hpend', ?_⟩
      rw [State.requestsToCome_eq, State.requestsToCome_eq, hrem, hrem', Prog.requests, hr, State.adapter, State.adapter, hparams]
    | fails _ _ hb' | delivers _ hb' => exact absurd (ht.symm.trans hb') (by decide)

end Sys2Proof.Machine

/-! PROOFS. The phase actions of legal states (40_command_lifecycle.md R135, R142, R150): each phase has its action, so the machine
steps but for a hang; what each phase sends; and how many steps a command takes at most. -/

namespace Sys2Proof.Machine

/-! Every phase of a legal state has its action (R135). -/

section
variable {s : State}

/-- The commands that walk go on after it (41_ipek_walk.md R168). -/
theorem State.afterWalk_next (hopc : s.work.opc ∈ [0x02#8, 0x05#8, 0x06#8, 0x07#8, 0x08#8, 0x09#8]) :
    ∃ t, s.afterWalk = .next t := by
  unfold State.afterWalk
  split
  · exact ⟨_, rfl⟩
  · rename_i hderive
    rw [if_pos (opcode_bounds_of_walks hopc hderive)]
    exact ⟨_, rfl⟩

theorem State.AtAction.yields_next (h : s.AtAction) {o : StepOutcome} (hy : (phaseAction s).Yields o) : ∃ t, o = .next t := by
  have hphase := (h.legal.running h.busy).phase
  cases hph : s.work.ph with
  | idle => simp [State.phaseLegal, hph] at hphase
  | data =>
    obtain ⟨out, chain, ho⟩ := h.data_yields hph hy
    exact ⟨_, ho⟩
  | ipekL | dekL =>
    simp only [phaseAction, hph] at hy
    obtain ⟨c, hc⟩ := hy
    exact ⟨_, hc⟩
  | ipekR | dekR =>
    simp only [phaseAction, hph] at hy
    obtain ⟨c, hc⟩ := hy
    dsimp only at hc
    split at hc <;> exact ⟨_, hc⟩
  | walk =>
    simp only [State.phaseLegal, hph] at hphase
    simp only [phaseAction, hph] at hy
    obtain ⟨w, -, hw⟩ := (Prog.yields_bind _ _ _).mp hy
    replace hw := (Prog.yields_ret _ _).mp hw
    split at hw
    · obtain ⟨t, ht⟩ := State.afterWalk_next
        (s := { s with work := { s.work with kreg := w.kreg, cur := w.cur, sr := w.sr } }) hphase.1
      exact ⟨t, hw.trans ht⟩
    · exact ⟨_, hw⟩
  | gen | ereg =>
    simp only [phaseAction, hph] at hy
    obtain ⟨k, -, hk⟩ := (Prog.yields_bind _ _ _).mp hy
    exact ⟨_, hk⟩

end

/-! The machine steps from every legal state, but for a hang (R135, R147). -/

/-- Every CMD write is answered. -/
theorem issueWord_next (w : Word) (s : State) : ∃ t, issueWord w s = .next t := by
  obtain ⟨-, hx⟩ | ⟨-, _, _, hx⟩ | ⟨-, _, -, -, hx⟩ := issueWord_cases w s <;> exact ⟨_, hx⟩

section
variable {s : State} (h : s.Legal)
include h

theorem State.Legal.engineStep_next (hb : s.busy = true) (hpend : s.pend = none) : ∃ t, Machine.engineStep s = .next t := by
  obtain ⟨q, k, -, hx⟩ | ⟨o, ho, hx⟩ := engineStep_cases s
  · exact ⟨_, hx⟩
  · exact hx ▸ (h.atAction hb hpend).yields_next (Prog.yields_of_resume ho)

/-- The enabled agent steps; with none enabled the answer is `stuck`. -/
theorem State.Legal.agentStep_next (stuck : StepOutcome) :
    (∃ t, Machine.agentStep stuck s = .next t) ∨ Machine.agentStep stuck s = stuck ∧ s.pend ≠ none ∧ s.silent = true := by
  cases hq : s.pend with
  | some q =>
    cases hsil : s.silent with
    | true => exact .inr ⟨agentStep_silent hq hsil stuck, by simp, rfl⟩
    | false => exact .inl ⟨_, agentStep_pending hq hsil stuck⟩
  | none =>
    cases hb : s.busy with
    | true => exact .inl (agentStep_busy hq hb stuck ▸ h.engineStep_next hb hq)
    | false => exact .inl ⟨_, agentStep_idle hq hb stuck⟩

/-- Every input is answered. -/
theorem State.Legal.deliver_next (x : Input) : ∃ t, Machine.deliver x s = .next t := by
  cases x with
  | access a =>
    cases hc : commandWrite s.params a with
    | none => exact ⟨_, hostAccess_bus hc⟩
    | some w =>
      obtain ⟨t, ht⟩ := issueWord_next w (s.respond (some .accepted))
      exact ⟨t, (hostAccess_command hc).trans ht⟩
  | tick =>
    obtain ht | ⟨ht, -⟩ := h.agentStep_next (.next s)
    · exact ht
    · exact ⟨s, ht⟩
  | poll | noAnswer | lateAnswer | reset => exact ⟨_, rfl⟩

end

/-- Settles O39: every input is answered, and so is the step of the enabled agent. -/
theorem onlyAHangStops : Obligations.OnlyAHangStops := by
  intro s h
  cases hin : s.inputs with
  | nil =>
    rw [step_no_input hin]
    obtain ht | ⟨ht, hpend, hsilent⟩ := h.agentStep_next (.fault .hang)
    · exact .inl ht
    · exact .inr ⟨ht, rfl, hpend, hsilent⟩
  | cons x rest =>
    rw [step_input hin]
    exact .inl ((h.hostFields s.irqEn s.wrIgn rest s.resp).deliver_next x)

/-! The requests of the phases (R142). -/

section
variable {α β : Type}

/-- Some answers to the requests of `p` lead it to send `q`. -/
def Prog.Sends (p : Prog α) (q : Request) : Prop :=
  match p with
  | .ret _ => False
  | .call q' k => q = q' ∨ ∃ r, Prog.Sends (k r) q

@[simp] theorem Prog.not_sends_ret (a : α) (q : Request) : ¬(Prog.ret a).Sends q := id

@[simp] theorem Prog.sends_call (q' : Request) (k : Block → Prog α) (q : Request) :
    (Prog.call q' k).Sends q ↔ q = q' ∨ ∃ r, (k r).Sends q := Iff.rfl

theorem Prog.sends_of_resume {p : Prog α} {rs : List Block} {q : Request} {k : Block → Prog α} (h : p.resume rs = .call q k) :
    p.Sends q := by
  induction rs generalizing p with
  | nil =>
    obtain rfl : p = .call q k := h
    exact .inl rfl
  | cons r rs ih =>
    cases p with
    | ret a => cases h
    | call q' k' => exact .inr ⟨r, ih (p := k' r) h⟩

/-- What follows a computation and sends nothing adds no request. -/
@[simp] theorem Prog.sends_bind_ret (p : Prog α) (f : α → β) (q : Request) : (p.bind fun a => .ret (f a)).Sends q ↔ p.Sends q := by
  induction p with
  | ret a => rfl
  | call q' k ih => simp only [Prog.call_bind, Prog.sends_call, ih]

end

/-- The phases and commands that send a request of the kind of `q` (R142). -/
def Working.MaySend (w : Working) (q : Request) : Prop :=
  match q with
  | .desE _ _ => w.ph = .walk ∨ w.ph = .gen ∨ w.ph = .ereg
  | .tdesE _ _ => w.ph = .ipekL ∨ w.ph = .ipekR ∨ w.ph = .dekL ∨ w.ph = .dekR ∨ (w.ph = .data ∧ w.opc = 0x08#8)
  | .tdesD _ _ => w.ph = .data ∧ w.opc = 0x09#8

/-- The one-way compression sends DES_E (41_ipek_walk.md R174). -/
theorem generateKey_sends {key : Key} {r : Block} {q : Request} (h : (generateKey key r).Sends q) : ∃ k b, q = .desE k b := by
  obtain rfl | ⟨-, rfl | ⟨-, ⟨⟩⟩⟩ := h <;> exact ⟨_, _, rfl⟩

theorem walkIteration_sends {ksn : Ksn} {w : WalkRegs} {q : Request} (h : (walkIteration ksn w).Sends q) :
    ∃ k b, q = .desE k b := by
  unfold walkIteration at h
  split at h
  · exact generateKey_sends ((Prog.sends_bind_ret _ _ _).mp h)
  · exact absurd h (Prog.not_sends_ret _ _)

theorem State.AtAction.sends {s : State} (h : s.AtAction) {q : Request} (hq : (phaseAction s).Sends q) : s.work.MaySend q := by
  have run := h.legal.running h.busy
  cases hph : s.work.ph with
  | idle => exact absurd run.phase (by simp [State.phaseLegal, hph])
  | ipekL | dekL =>
    simp only [phaseAction, hph] at hq
    obtain rfl | ⟨-, ⟨⟩⟩ := hq
    simp [Working.MaySend, hph]
  | ipekR | dekR =>
    simp only [phaseAction, hph] at hq
    obtain rfl | ⟨c, hc⟩ := hq
    · simp [Working.MaySend, hph]
    · dsimp only at hc
      split at hc <;> cases hc
  | walk =>
    simp only [phaseAction, hph] at hq
    obtain ⟨k, b, rfl⟩ := walkIteration_sends ((Prog.sends_bind_ret _ _ _).mp hq)
    exact .inl hph
  | gen =>
    simp only [phaseAction, hph] at hq
    obtain ⟨k, b, rfl⟩ := generateKey_sends ((Prog.sends_bind_ret _ _ _).mp hq)
    exact .inr (.inl hph)
  | ereg =>
    simp only [phaseAction, hph] at hq
    obtain rfl | ⟨-, ⟨⟩⟩ := hq
    exact .inr (.inr hph)
  | data =>
    obtain ⟨hopc, -, hbuf⟩ := State.data_of_phaseLegal hph run.phase run.length
    simp only [phaseAction, hph] at hq
    rcases hopc with hopc | hopc
    · rw [phaseData_encrypt hbuf hopc] at hq
      obtain rfl | ⟨-, ⟨⟩⟩ := hq
      exact .inr (.inr (.inr (.inr ⟨hph, hopc⟩)))
    · rw [phaseData_decrypt hbuf hopc] at hq
      obtain rfl | ⟨-, ⟨⟩⟩ := hq
      exact ⟨hph, hopc⟩

/-- A step of the agents that leaves a request pending where none was is the engine's, which sends it. -/
theorem State.Legal.agentStep_sends {s t : State} {q : Request} {stuck : StepOutcome} (h : s.Legal) (hpend : s.pend = none)
    (hs : Machine.agentStep stuck s = .next t) (hq : t.pend = some q) : s.work.MaySend q := by
  cases hb : s.busy with
  | false =>
    obtain rfl := Host.Outcome.next.inj ((agentStep_idle hpend hb stuck).symm.trans hs)
    exact nomatch hpend.symm.trans hq
  | true =>
    rw [agentStep_busy hpend hb] at hs
    obtain ⟨q', k, hk, hx⟩ | ⟨o, ho, hx⟩ := engineStep_cases s
    · obtain rfl := Host.Outcome.next.inj (hx.symm.trans hs)
      obtain rfl := Option.some.inj hq
      exact (h.atAction hb hpend).sends (Prog.sends_of_resume hk)
    · obtain rfl : o = .next t := hx.symm.trans hs
      cases State.ActionEnd.of_yields (Prog.yields_of_resume ho) <;> exact nomatch hpend.symm.trans hq

/-- No input but a tick sends a request. -/
theorem deliver_pend {s t : State} {x : Input} (hpend : s.pend = none) (hx : x ≠ .tick) (hs : deliver x s = .next t) :
    t.pend = none := by
  cases x with
  | tick => exact absurd rfl hx
  | access a =>
    cases hc : commandWrite s.params a with
    | none =>
      obtain rfl := Host.Outcome.next.inj ((hostAccess_bus hc).symm.trans hs)
      obtain ⟨-, -, -, -, -, hsame, -⟩ := s.busAccess_frame a
      exact hsame.trans hpend
    | some w =>
      replace hs := (hostAccess_command hc).symm.trans hs
      obtain ⟨-, hx⟩ | ⟨-, e, failOp, hx⟩ | ⟨-, i, -, -, hx⟩ := issueWord_cases w (s.respond (some .accepted))
      · exact Host.Outcome.next.inj (hx.symm.trans hs) ▸ hpend
      · exact Host.Outcome.next.inj (hx.symm.trans hs) ▸ hpend
      · obtain rfl := Host.Outcome.next.inj (hx.symm.trans hs)
        cases i <;> exact hpend
  | poll =>
    obtain rfl := Host.Outcome.next.inj hs
    rw [State.pollStatus_eq]
    exact hpend
  | noAnswer => exact (State.leaveUnanswered_none hpend).symm.trans (Host.Outcome.next.inj hs) ▸ hpend
  | lateAnswer => exact Host.Outcome.next.inj hs ▸ hpend
  | reset => exact Host.Outcome.next.inj hs ▸ rfl

/-- Settles O23: only the engine sends, and its phase action sends what R142 lists. -/
theorem requestsByPhase : Obligations.RequestsByPhase := by
  intro s t q h hpend hs hq
  have hsends : s.work.MaySend q := by
    cases hin : s.inputs with
    | nil => exact h.agentStep_sends hpend ((step_no_input hin).symm.trans hs) hq
    | cons x rest =>
      rw [step_input hin] at hs
      have hlegal := h.hostFields s.irqEn s.wrIgn rest s.resp
      by_cases hx : x = .tick
      · subst hx
        exact hlegal.agentStep_sends hpend hs hq
      · exact nomatch (deliver_pend (s := { s with inputs := rest }) hpend hx hs).symm.trans hq
  cases q <;> exact hsends

/-! How many steps a command takes at most (R150). A phase action with m requests is 2 m + 1 steps; what is still to come of an
action counts with the phases after it. -/

section
variable {α β : Type}

/-- `p` sends at most `n` requests. -/
def Prog.AsksAtMost (p : Prog α) (n : Nat) : Prop :=
  match p with
  | .ret _ => True
  | .call _ k => ∃ m, n = m + 1 ∧ ∀ r, Prog.AsksAtMost (k r) m

@[simp] theorem Prog.asksAtMost_ret (a : α) (n : Nat) : (Prog.ret a).AsksAtMost n := trivial

@[simp] theorem Prog.asksAtMost_call_succ (q : Request) (k : Block → Prog α) (n : Nat) :
    (Prog.call q k).AsksAtMost (n + 1) ↔ ∀ r, (k r).AsksAtMost n :=
  ⟨fun ⟨_, hn, h⟩ => Nat.succ.inj hn ▸ h, fun h => ⟨n, rfl, h⟩⟩

/-- With a request before it the computation has had fewer answers than the requests it can send. -/
theorem Prog.AsksAtMost.answers_lt {p : Prog α} {n : Nat} (h : p.AsksAtMost n) {rs : List Block} {q : Request}
    {k : Block → Prog α} (hk : p.resume rs = .call q k) : rs.length < n := by
  induction rs generalizing p n with
  | nil =>
    obtain rfl : p = .call q k := hk
    obtain ⟨m, rfl, -⟩ := h
    exact Nat.succ_pos m
  | cons r rs ih =>
    cases p with
    | ret a => cases hk
    | call q' k' =>
      obtain ⟨m, rfl, h⟩ := h
      exact Nat.succ_lt_succ (ih (h r) hk)

@[simp] theorem Prog.asksAtMost_bind_ret (p : Prog α) (f : α → β) (n : Nat) :
    (p.bind fun a => .ret (f a)).AsksAtMost n ↔ p.AsksAtMost n := by
  induction p generalizing n with
  | ret a => exact Iff.rfl
  | call q k ih => simp only [Prog.call_bind, Prog.AsksAtMost, ih]

end

/-- The requests of a phase action, at most. -/
def Phase.requestBound (ph : Phase) : Nat :=
  match ph with
  | .idle => 0
  | .ipekL => 1
  | .ipekR => 1
  | .walk => 2
  | .dekL => 1
  | .dekR => 1
  | .data => 1
  | .gen => 2
  | .ereg => 1

/-- The steps of the phase actions after the one of the current phase, at most. -/
def State.laterBound (s : State) : Nat :=
  let n := s.ops.len.toNat / 8
  match s.work.ph with
  | .idle => 0
  | .ipekL => 114 + 3 * n
  | .ipekR => 111 + 3 * n
  | .walk => 5 * s.work.sr.toNat.log2 + 6 + 3 * n
  | .dekL => 3 + 3 * n
  | .dekR => 3 * n
  | .data => 3 * (n - s.work.bi.toNat - 1)
  | .gen => 0
  | .ereg => 0

/-- The steps to the end of the command, at most: the rest of the action of the current phase (a request still to be sent is two steps, one pending
is one, and one step ends the action), and the actions after it. -/
def State.stepBound (s : State) : Nat :=
  s.laterBound + 2 * (s.work.ph.requestBound - s.answers.length) + if s.pend = none then 1 else 0

theorem walkIteration_asksAtMost (ksn : Ksn) (w : WalkRegs) : (walkIteration ksn w).AsksAtMost 2 := by
  unfold walkIteration
  split <;> simp [generateKey, encryptRegister]

theorem phaseAction_asksAtMost (s : State) : (phaseAction s).AsksAtMost s.work.ph.requestBound := by
  unfold phaseAction
  cases hph : s.work.ph with
  | idle => trivial
  | ipekL | dekL => exact (Prog.asksAtMost_call_succ _ _ 0).mpr fun _ => trivial
  | ipekR | dekR =>
    refine (Prog.asksAtMost_call_succ _ _ 0).mpr fun _ => ?_
    dsimp only
    split <;> trivial
  | walk => exact (Prog.asksAtMost_bind_ret _ _ 2).mpr (walkIteration_asksAtMost _ _)
  | data =>
    dsimp only [phaseData, Phase.requestBound]
    repeat' split
    all_goals simp
  | gen => simp [phaseGen, Phase.requestBound, generateKey, encryptRegister]
  | ereg => simp [phaseEreg, Phase.requestBound, encryptRegister]

section
variable {s t : State}

theorem State.afterWalk_bound (hs : s.afterWalk = .next t) (ht : t.busy = true) :
    t.laterBound + 2 * t.work.ph.requestBound + 1 ≤ 6 + 3 * (s.ops.len.toNat / 8) := by
  unfold State.afterWalk at hs
  split at hs
  · obtain rfl := Host.Outcome.next.inj hs
    cases ht
  · split at hs
    · obtain rfl := Host.Outcome.next.inj hs
      unfold State.variantStep at ht ⊢
      split at ht
      · rename_i hpin
        rw [if_pos hpin]
        dsimp only at ht ⊢
        split at ht
        · cases ht
        · rename_i hkey
          rw [if_neg hkey]
          simp only [State.laterBound, Phase.requestBound, State.dataInit_work, State.dataInit_ops]
          omega
      · rename_i hpin
        rw [if_neg hpin]
        simp only [State.laterBound, Phase.requestBound]
        omega
    · cases hs

/-- The end of a phase action leaves at most the steps of the later ones. -/
theorem State.AtAction.bound (h : s.AtAction) (hy : (phaseAction s).Yields (.next t)) (ht : t.busy = true) :
    t.laterBound + 2 * t.work.ph.requestBound + 1 ≤ s.laterBound := by
  have run := h.legal.running h.busy
  have hphase := run.phase
  cases hph : s.work.ph with
  | idle => simp [State.phaseLegal, hph] at hphase
  | ipekL | dekL =>
    simp only [phaseAction, hph] at hy
    obtain ⟨c, hc⟩ := hy
    obtain rfl := Host.Outcome.next.inj hc
    simp only [State.laterBound, Phase.requestBound, hph]
    omega
  | ipekR =>
    simp only [phaseAction, hph] at hy
    obtain ⟨c, hc⟩ := hy
    dsimp only at hc
    split at hc
    · obtain rfl := Host.Outcome.next.inj hc
      cases ht
    · obtain rfl := Host.Outcome.next.inj hc
      have hlog : shiftRegMask.toNat.log2 = 20 := by decide
      simp only [State.laterBound, Phase.requestBound, hph, State.walkInit_work, State.walkInit_ops, hlog]
      omega
  | dekR =>
    simp only [State.phaseLegal, hph] at hphase
    simp only [phaseAction, hph] at hy
    obtain ⟨c, hc⟩ := hy
    dsimp only at hc
    split at hc
    · obtain rfl := Host.Outcome.next.inj hc
      cases ht
    · obtain rfl := Host.Outcome.next.inj hc
      obtain ⟨-, hmin, -⟩ := run.length (by simp_all)
      simp only [State.laterBound, Phase.requestBound, hph, State.dataInit_work, State.dataInit_ops]
      omega
  | walk =>
    simp only [phaseAction, hph] at hy
    obtain ⟨w, hiter, hw⟩ := (Prog.yields_bind _ _ _).mp hy
    replace hw := (Prog.yields_ret _ _).mp hw
    have hsr := walkIteration_sr hiter
    split at hw
    · refine (State.afterWalk_bound hw.symm ht).trans ?_
      simp only [State.laterBound, hph]
      omega
    · rename_i hmore
      obtain rfl := Host.Outcome.next.inj hw
      dsimp only at hsr
      have hlog := log2_shift (hsr ▸ hmore)
      rw [← hsr] at hlog
      simp only [State.laterBound, Phase.requestBound, hph]
      omega
  | data =>
    obtain ⟨-, hbi, -⟩ := State.data_of_phaseLegal hph run.phase run.length
    obtain ⟨out, chain, ho⟩ := h.data_yields hph hy
    obtain rfl := Host.Outcome.next.inj ho
    unfold State.dataBlock at ht ⊢
    dsimp only at ht ⊢
    split at ht
    · cases ht
    · rename_i hlast
      rw [if_neg hlast]
      have hnext := blockIndex_succ hbi
      simp only [State.laterBound, Phase.requestBound, hph]
      omega
  | gen | ereg =>
    simp only [phaseAction, hph] at hy
    obtain ⟨k, -, hk⟩ := (Prog.yields_bind _ _ _).mp hy
    obtain rfl := Host.Outcome.next.inj hk
    cases ht

variable (h : s.Legal) (hb : s.busy = true)
include h hb

/-- With a request pending the phase action has had fewer answers than it can ask for. -/
theorem State.Legal.answers_lt {q : Request} (hpend : s.pend = some q) : s.answers.length < s.work.ph.requestBound := by
  obtain ⟨k, hk⟩ := (h.running hb).port.resume_of_pend hpend
  exact (phaseAction_asksAtMost { s with answers := [] }).answers_lt hk

theorem State.Legal.stepBound_pos : 0 < s.stepBound := by
  unfold State.stepBound
  cases hpend : s.pend with
  | none => simp
  | some q =>
    have := h.answers_lt hb hpend
    omega

/-- A command in progress is within the bound of the longest: CREATE_IPEK's phases, the walk, DEK and n blocks (R150). -/
theorem State.Legal.stepBound_le : s.stepBound ≤ 117 + 3 * (s.ops.len.toNat / 8) := by
  have hlast : (if s.pend = none then 1 else 0) ≤ 1 := by split <;> decide
  unfold State.stepBound State.laterBound
  cases hph : s.work.ph with
  | walk =>
    have hphase := (h.running hb).phase
    simp only [State.phaseLegal, hph] at hphase
    have hne : s.work.sr.toNat ≠ 0 := fun h0 => hphase.2 (BitVec.eq_of_toNat_eq h0)
    have hlog := (Nat.log2_lt hne).mpr s.work.sr.isLt
    simp only [Phase.requestBound]
    omega
  | _ =>
    simp only [Phase.requestBound]
    omega

/-- Every step of the agents that does not end the command brings its end nearer. -/
theorem State.Legal.stepBound_lt (hs : freeRun s = .next t) (ht : t.busy = true) : t.stepBound < s.stepBound := by
  obtain ⟨q, hpend, -, rfl⟩ | ⟨hpend, hengine⟩ := freeRun_busy hb hs
  · obtain ⟨r, -, hr⟩ | ⟨x, -, hx⟩ := s.adapterStep_cases q
    · have hlt := h.answers_lt hb hpend
      rw [hr]
      simp only [State.stepBound, State.laterBound, List.length_append, List.length_singleton, hpend, if_true, reduceCtorEq, if_false]
      omega
    · rw [hx] at ht
      cases ht
  · obtain ⟨q, k, -, hx⟩ | ⟨o, ho, hx⟩ := engineStep_cases s
    · obtain rfl := Host.Outcome.next.inj (hx.symm.trans hengine)
      simp only [State.stepBound, State.laterBound, hpend, State.send_work, State.send_ops, State.send_answers,
        State.send_pend, if_true, reduceCtorEq, if_false]
      omega
    · obtain rfl : o = .next t := hx.symm.trans hengine
      have hat := h.atAction hb hpend
      have hy := Prog.yields_of_resume ho
      have hbound := hat.bound hy ht
      obtain ⟨hans, hpend'⟩ : t.answers = [] ∧ t.pend = s.pend := by
        cases State.ActionEnd.of_yields hy <;> exact ⟨rfl, rfl⟩
      simp only [State.stepBound, hans, hpend', hpend, List.length_nil, if_true]
      simp only [State.laterBound] at hbound ⊢
      omega

end

/-- The default schedule runs a command to its end within its bound. -/
theorem State.Legal.ends {s : State} (h : s.Legal) (hb : s.busy = true) (hin : s.inputs = []) (hsilent : s.silent = false) :
    ∃ n t, n ≤ s.stepBound ∧ runSteps n s = .next t ∧ t.busy = false ∧ t.pend = none ∧ (t.done = true ∨ t.err = true) := by
  induction hm : s.stepBound using Nat.strong_induction_on generalizing s with
  | _ m ih =>
    subst hm
    obtain ⟨t, hs⟩ : ∃ t, step s = .next t :=
      (onlyAHangStops s h).resolve_right fun ⟨_, _, _, hhang⟩ => by simp [hsilent] at hhang
    have hrun := (step_no_input hin).symm.trans hs
    cases ht : t.busy with
    | false =>
      obtain ⟨-, hpend, hflag⟩ := (freeRun_move hrun).ends_command hb ht
      exact ⟨1, t, h.stepBound_pos hb, by rw [runSteps, hs]; rfl, ht, hpend, hflag⟩
    | true =>
      obtain ⟨-, -, -, -, hsilent', hinputs', -, -⟩ := (freeRun_move hrun).frame
      have hlt := h.stepBound_lt hb hrun ht
      obtain ⟨n, u, hn, hu, hend⟩ :=
        ih _ hlt (legalStatesAreKept s t h hs) ht (hinputs'.trans hin) (hsilent'.trans hsilent) rfl
      exact ⟨n + 1, u, by omega, by rw [runSteps, hs]; exact hu, hend⟩

/-- Settles O34: the bound of the steps to come, which no state exceeds. -/
theorem everyCommandEnds : Obligations.EveryCommandEnds := by
  intro s h hb hin hsilent
  obtain ⟨n, t, hn, ht⟩ := h.ends hb hin hsilent
  exact ⟨n, t, hn.trans (h.stepBound_le hb), ht⟩

end Sys2Proof.Machine

/-! PROOFS. The adapter (R141 to R145) and the determinism of the agents' steps (R130, R135, R144). -/

namespace Sys2Proof.Machine

/-- The reference adapter answers every request (R145). -/
theorem referenceAdapter_ne_fail (q : Request) (x : FailCode) : referenceAdapter q ≠ .fail x := by
  cases q <;> exact fun h => nomatch h

/-- Settles O21: with the request to be answered, the step is the adapter's. -/
theorem adapterAnswerOrFailure : Obligations.AdapterAnswerOrFailure := by
  refine ⟨fun s q hin hpend hsilent => ?_, referenceAdapter_ne_fail⟩
  have hs : step s = .next (s.adapterStep q) := (step_no_input hin).trans (agentStep_pending hpend hsilent _)
  rw [hs]
  exact ⟨fun r hr => by rw [State.adapterStep_ok hr], fun x hx => by rw [State.adapterStep_fail hx]; rfl⟩

/-- Settles O24: with no table the backend answers. -/
theorem referenceAdapterIsTwoKeyEde : Obligations.ReferenceAdapterIsTwoKeyEde := by
  intro a k64 b k hbackend htable
  have hanswer (q : Request) : adapterAnswer a q = referenceAdapter q := by simp [adapterAnswer, htable, hbackend, backendAnswer]
  exact ⟨hanswer _, hanswer _, hanswer _⟩

/-! DES and the parity bits of its key (93_implementation_defined.md G5). -/

/-- A selection that names no bit cleared by the mask is blind to the mask. -/
theorem desSelect_and {n m : Nat} (x mask : BitVec n) {table : List Nat} (hlen : table.length = m)
    (h : ∀ i, (hi : i < m) → mask.getMsbD (table[i]'(by omega) - 1) = true) :
    desSelect m table (x &&& mask) = desSelect m table x := by
  apply BitVec.eq_of_getMsbD_eq
  intro i hi
  rw [getMsbD_desSelect _ hlen hi, getMsbD_desSelect _ hlen hi, BitVec.getMsbD_and, h i hi, Bool.and_true]

/-- PC1 names no parity bit, so the round keys do not depend on them. -/
theorem desKeys_parity (key : Block) : desKeys (key &&& 0xFEFEFEFEFEFEFEFE#64) = desKeys key := by
  simp only [desKeys, desSelect_and key 0xFEFEFEFEFEFEFEFE#64 (table := desPC1) (m := 56) rfl (by decide)]

/-- Settles O25: both directions use the round keys alone. -/
theorem desIgnoresParityBits : Obligations.DesIgnoresParityBits := by
  intro key b
  simp only [desEncrypt, desDecrypt, desKeys_parity, and_self]

/-! What a step of engine or adapter depends on (R135, R144). -/

/-- `p` and `q` send the same requests, and with the same answers have values related by `R`. -/
def Prog.Related {α β : Type} (R : α → β → Prop) (p : Prog α) (p' : Prog β) : Prop :=
  match p, p' with
  | .ret a, .ret b => R a b
  | .call q k, .call q' k' => q = q' ∧ ∀ r, Prog.Related R (k r) (k' r)
  | .ret _, .call _ _ => False
  | .call _ _, .ret _ => False

section
variable {α β γ : Type} {R : α → β → Prop}

theorem Prog.Related.bind (p : Prog γ) {f : γ → Prog α} {g : γ → Prog β} (h : ∀ c, (f c).Related R (g c)) :
    (p.bind f).Related R (p.bind g) := by
  induction p with
  | ret c => exact h c
  | call q k ih => exact ⟨rfl, ih⟩

theorem Prog.Related.resume {p : Prog α} {p' : Prog β} (h : p.Related R p') (rs : List Block) :
    (p.resume rs).Related R (p'.resume rs) := by
  induction rs generalizing p p' with
  | nil => exact h
  | cons r rs ih =>
    cases p <;> cases p'
    · exact h
    · exact h.elim
    · exact h.elim
    · exact ih (h.2 r)

end

/-- The result flags (10_state.md R35, R38). -/
def State.flags (s : State) : Bool × Bool × ErrCode × BitVec 8 × FailCode :=
  (s.done, s.err, s.errCode, s.failOp, s.adapterCode)

/-- `s` and `t` are alike in what the agents read, and in the result flags if `P` holds. -/
def State.Alike (P : Prop) (s t : State) : Prop := s.engineView = t.engineView ∧ (P → s.flags = t.flags)

/-- Two steps end in states that are alike, or in the same fault. -/
def OutcomesAlike (P : Prop) (o o' : StepOutcome) : Prop :=
  match o, o' with
  | .next s, .next t => s.Alike P t
  | .fault f, .fault f' => f = f'
  | .refused r, .refused r' => r = r'
  | _, _ => False

theorem Prog.Related.ite {α β : Type} {R : α → β → Prop} {c : Prop} [Decidable c] {p q : Prog α} {p' q' : Prog β}
    (hp : p.Related R p') (hq : q.Related R q') : (if c then p else q).Related R (if c then p' else q') := by
  split
  · exact hp
  · exact hq

theorem State.Alike.ite {P c : Prop} [Decidable c] {s t u v : State} (hs : s.Alike P t) (hu : u.Alike P v) :
    State.Alike P (if c then s else u) (if c then t else v) := by
  split
  · exact hs
  · exact hu

theorem OutcomesAlike.ite {P c : Prop} [Decidable c] {o o' u u' : StepOutcome} (ho : OutcomesAlike P o o')
    (hu : OutcomesAlike P u u') : OutcomesAlike P (if c then o else u) (if c then o' else u') := by
  split
  · exact ho
  · exact hu

section
variable {P : Prop} {s t : State}

/-- Alike states differ only in what the agents do not read. -/
theorem State.Alike.exists_eq (h : s.Alike P t) : ∃ u : State,
    t = { s with irqEn := u.irqEn, done := u.done, err := u.err, wrIgn := u.wrIgn, errCode := u.errCode, failOp := u.failOp,
                 adapterCode := u.adapterCode, inputs := u.inputs, resp := u.resp } := by
  refine ⟨t, ?_⟩
  obtain ⟨hview, -⟩ := h
  simp only [State.engineView, Prod.mk.injEq] at hview
  obtain ⟨hparams, hbusy, hops, hdin, hdout, hwork, hpend, hsilent, hanswers, hresult⟩ := hview
  rw [hparams, hbusy, hops, hdin, hdout, hwork, hpend, hsilent, hanswers, hresult]

/-- The agents' updates keep states alike: working registers and DOUT, the port, and the two completions. -/
theorem State.Alike.writes (h : s.Alike P t) (w : Working) (m : Memory) :
    State.Alike P { s with work := w, dout := m } { t with work := w, dout := m } := by
  obtain ⟨u, rfl⟩ := h.exists_eq
  exact ⟨rfl, h.2⟩

theorem State.Alike.port (h : s.Alike P t) (q : Option Request) (rs : List Block) :
    State.Alike P { s with pend := q, answers := rs } { t with pend := q, answers := rs } := by
  obtain ⟨u, rfl⟩ := h.exists_eq
  exact ⟨rfl, h.2⟩

theorem State.Alike.complete (h : s.Alike P t) (v : Option Key) : (s.complete v).Alike P (t.complete v) := by
  obtain ⟨u, rfl⟩ := h.exists_eq
  exact ⟨rfl, fun hP => by have hflags := h.2 hP; simp_all [State.flags]⟩

theorem State.Alike.raise (h : s.Alike P t) (e : ErrCode) (failOp : BitVec 8) (x : FailCode) :
    (s.raise e failOp x).Alike P (t.raise e failOp x) := by
  obtain ⟨u, rfl⟩ := h.exists_eq
  exact ⟨rfl, fun hP => by have hflags := h.2 hP; simp_all [State.flags]⟩

end

section
variable {P : Prop} {s t : State} (h : s.Alike P t)
include h

theorem State.Alike.variantStep : s.variantStep.Alike P t.variantStep := by
  obtain ⟨u, rfl⟩ := h.exists_eq
  exact .ite (.ite ((h.writes _ s.dout).complete _) (h.writes _ s.dout)) (h.writes _ s.dout)

theorem State.Alike.afterWalk : OutcomesAlike P s.afterWalk t.afterWalk := by
  have hvariant := h.variantStep
  obtain ⟨u, rfl⟩ := h.exists_eq
  exact .ite (h.complete _) (.ite hvariant rfl)

theorem State.Alike.dataBlock (out chain : Block) : (s.dataBlock out chain).Alike P (t.dataBlock out chain) := by
  obtain ⟨u, rfl⟩ := h.exists_eq
  have hnext := h.writes { s.work with cv := chain, bi := s.work.bi + 1 } (s.dout.write64 (8 * s.work.bi.toNat) out)
  exact .ite (hnext.complete none) hnext

/-- Phase actions of alike states send the same requests and end alike. -/
theorem State.Alike.phaseAction : (phaseAction s).Related (OutcomesAlike P) (phaseAction t) := by
  obtain ⟨u, rfl⟩ := h.exists_eq
  unfold Machine.phaseAction
  cases hph : s.work.ph with
  | idle => exact rfl
  | ipekL | dekL => exact ⟨rfl, fun c => h.writes _ s.dout⟩
  | ipekR | dekR => exact ⟨rfl, fun c => .ite ((h.writes _ s.dout).complete _) (h.writes _ s.dout)⟩
  | walk => exact .bind _ fun w => OutcomesAlike.ite (h.writes _ s.dout).afterWalk (h.writes _ s.dout)
  | data =>
    exact .ite (.ite ⟨rfl, fun c => h.dataBlock c c⟩ (.ite ⟨rfl, fun r => h.dataBlock _ _⟩ rfl)) rfl
  | gen | ereg => exact .bind _ fun k => h.complete _

/-- The engine's steps in alike states end alike. -/
theorem State.Alike.engineStep : OutcomesAlike P (engineStep s) (engineStep t) := by
  obtain ⟨u, rfl⟩ := h.exists_eq
  have hrel := (h.port s.pend []).phaseAction.resume s.answers
  obtain ⟨q, k, hk, hx⟩ | ⟨o, ho, hx⟩ := engineStep_cases s <;>
    obtain ⟨q', k', hk', hx'⟩ | ⟨o', ho', hx'⟩ := engineStep_cases _ <;> rw [hx, hx']
  · rw [hk, hk'] at hrel
    obtain ⟨rfl, -⟩ := hrel
    exact h.port (some q) s.answers
  · rw [hk, ho'] at hrel
    exact hrel.elim
  · rw [ho, hk'] at hrel
    exact hrel.elim
  · rw [ho, ho'] at hrel
    exact hrel

/-- What decides which agent steps, and what the adapter reads. -/
theorem State.Alike.agents : t.busy = s.busy ∧ t.pend = s.pend ∧ t.silent = s.silent ∧ t.adapter = s.adapter ∧
    t.answers = s.answers ∧ t.work = s.work := by
  obtain ⟨u, rfl⟩ := h.exists_eq
  exact ⟨rfl, rfl, rfl, rfl, rfl, rfl⟩

/-- The adapter's steps in alike states end alike. -/
theorem State.Alike.adapterStep (q : Request) : (s.adapterStep q).Alike P (t.adapterStep q) := by
  obtain ⟨-, -, -, hadapter, hanswers, hwork⟩ := h.agents
  obtain ⟨r, hr, hx⟩ | ⟨x, hr, hx⟩ := s.adapterStep_cases q
  · rw [hx, State.adapterStep_ok (s := t) (by rw [hadapter, hr]), hanswers]
    exact h.port none _
  · rw [hx, State.adapterStep_fail (s := t) (by rw [hadapter, hr]), hwork]
    exact (h.port none s.answers).raise .adapterFailure s.work.opc x

/-- Ticks in alike states end alike. -/
theorem State.Alike.tick : OutcomesAlike P (tick s) (tick t) := by
  obtain ⟨hbusy, hpend, hsilent, -⟩ := h.agents
  unfold Machine.tick
  cases hp : s.pend with
  | none =>
    cases hb : s.busy with
    | true =>
      rw [agentStep_busy hp hb, agentStep_busy (hpend.trans hp) (hbusy.trans hb)]
      exact h.engineStep
    | false =>
      rw [agentStep_idle hp hb, agentStep_idle (hpend.trans hp) (hbusy.trans hb)]
      exact h
  | some q =>
    cases hsil : s.silent with
    | true =>
      rw [agentStep_silent hp hsil, agentStep_silent (hpend.trans hp) (hsilent.trans hsil)]
      exact h
    | false =>
      rw [agentStep_pending hp hsil, agentStep_pending (hpend.trans hp) (hsilent.trans hsil)]
      exact h.adapterStep q

end

/-- What ends like a next state is a next state, alike. -/
theorem OutcomesAlike.of_next {P : Prop} {s : State} {o : StepOutcome} (h : OutcomesAlike P (.next s) o) :
    ∃ t, o = .next t ∧ s.Alike P t := by
  cases o with
  | next t => exact ⟨t, rfl, h⟩
  | fault f => exact h.elim
  | refused r => exact h.elim

/-- Settles O44: ticks of alike states end alike, and a tick is the step of the enabled agent. -/
theorem engineStepIsDetermined : Obligations.EngineStepIsDetermined := by
  refine ⟨fun s t s' hview hs => ?_, fun s hin h => ?_, fun s hpend hsilent => tick_silent hpend hsilent⟩
  · have halike : s.Alike (s.flags = t.flags) t := ⟨hview, id⟩
    have htick := halike.tick
    rw [show tick s = .next s' from hs] at htick
    obtain ⟨t', ht, hview', hflags⟩ := htick.of_next
    refine ⟨t', ht, hview', fun hdone herr hcode hop hx => ?_⟩
    have hsame := hflags (by simp only [State.flags, hdone, herr, hcode, hop, hx])
    simpa only [State.flags, Prod.mk.injEq] using hsame
  · exact (tick_eq_freeRun h).trans (step_no_input hin).symm

end Sys2Proof.Machine

/-! PROOFS. The functions of the walk (41_ipek_walk.md R160 to R176): the walk by cursor and accumulated register is the tree walk over the counter
bits, and what is said of the walk is proved of the tree walk. -/

namespace Sys2Proof.Machine

/-- The register of createIPEK is the device ID above zeroes (R160, R164). -/
theorem ipekRegister_eq (ksn : Ksn) : ipekRegister ksn = ksn.extractLsb' 21 59 ++ 0#5 := by
  have hmask : ksnMask = BitVec.allOnes 80 <<< 21 := by decide
  apply BitVec.eq_of_getLsbD_eq
  intro i hi
  rw [ipekRegister, hmask]
  simp only [BitVec.getLsbD_setWidth, BitVec.getLsbD_ushiftRight, BitVec.getLsbD_and, BitVec.getLsbD_shiftLeft, BitVec.getLsbD_allOnes,
    BitVec.getLsbD_append, BitVec.getLsbD_extractLsb']
  grind

/-- Settles O56: createIPEK reads the KSN through its register alone. -/
theorem ipekReadsOnlyTheDeviceId : Obligations.IpekReadsOnlyTheDeviceId := by
  constructor
  · intro bdk n m h
    simp only [createIPEK, ipekRegister_eq, h]
  · intro ad bdk n l r
    dsimp only
    rw [← ipekRegister_eq]
    intro hl hr
    have hr' : ad (.tdesE (bdk ^^^ keyMask) (ipekRegister n)) = .ok r := hr
    simp only [createIPEK, Prog.eval_call, hl, hr', Prog.eval_ret]

/-! The registers of the walk, by the counter bits still to come. -/

/-- The KSN's low 64 bits with every bit below `b` cleared (R171 (e)). -/
def ksnFrom (ksn : Ksn) (b : Nat) : Block := ((ksn.setWidth 64) >>> b) <<< b

/-- The cursor with `b` counter bits still to come: on bit `b - 1`, or past the last (R165). -/
def cursorBelow (b : Nat) : Cursor :=
  match b with
  | 0 => 0
  | b + 1 => BitVec.twoPow 21 b

/-- The registers of the walk with `b` counter bits still to come. -/
def walkAt (ksn : Ksn) (b : Nat) (cur : Key) : WalkRegs := { kreg := ksnFrom ksn b, cur := cur, sr := cursorBelow b }

theorem getLsbD_ksnFrom (ksn : Ksn) (b i : Nat) :
    (ksnFrom ksn b).getLsbD i = (decide (i < 64) && decide (b ≤ i) && ksn.getLsbD i) := by
  grind [ksnFrom]

@[simp] theorem ksnFrom_zero (ksn : Ksn) : ksnFrom ksn 0 = ksn.setWidth 64 := by
  simp [ksnFrom]

/-- The walk starts with all 21 counter bits to come (R165, R166). -/
theorem walkKsnReg_eq_ksnFrom (ksn : Ksn) : walkKsnReg ksn = ksnFrom ksn 21 := by
  have hmask : 0xFFFFFFFFFFE00000#64 = BitVec.allOnes 64 <<< 21 := by decide
  apply BitVec.eq_of_getLsbD_eq
  intro i hi
  rw [walkKsnReg_eq, hmask, getLsbD_ksnFrom]
  simp only [BitVec.getLsbD_setWidth, BitVec.getLsbD_and, BitVec.getLsbD_shiftLeft, BitVec.getLsbD_allOnes]
  grind

/-- The cursor moves on to the next lower bit. -/
theorem cursorBelow_shift {b : Nat} (hb : b < 21) : cursorBelow (b + 1) >>> 1 = cursorBelow b := by
  cases b with
  | zero => decide
  | succ b =>
    apply BitVec.eq_of_getLsbD_eq
    intro i hi
    simp only [cursorBelow, BitVec.getLsbD_ushiftRight, BitVec.getLsbD_twoPow]
    grind

theorem setWidth_cursorBelow {b w : Nat} (hb : b < 21) (hw : 21 ≤ w) :
    (cursorBelow (b + 1)).setWidth w = BitVec.twoPow w b := by
  apply BitVec.eq_of_getLsbD_eq
  intro i hi
  simp only [cursorBelow, BitVec.getLsbD_setWidth, BitVec.getLsbD_twoPow]
  grind

theorem walkBitSet_cursorBelow {b : Nat} (hb : b < 21) (ksn : Ksn) : walkBitSet (cursorBelow (b + 1)) ksn = ksn.getLsbD b := by
  have hmask : (reg3Mask.setWidth 80).getLsbD b = true := by
    rw [show reg3Mask = BitVec.allOnes 21 by decide, BitVec.getLsbD_setWidth, BitVec.getLsbD_allOnes]
    grind
  have hne : BitVec.twoPow 80 b ≠ 0#80 := fun h => by
    have hbit := congrArg (BitVec.getLsbD · b) h
    simp only [BitVec.getLsbD_twoPow, BitVec.getLsbD_zero] at hbit
    grind
  rw [walkBitSet, setWidth_cursorBelow hb (by decide), BitVec.twoPow_and]
  cases ksn.getLsbD b with
  | true => simpa [BitVec.twoPow_and, hmask] using hne
  | false => simp

/-- A set bit under the cursor enters KREG, which then has every counter bit down to it; a clear one changes nothing. -/
theorem ksnFrom_of_set {ksn : Ksn} {b : Nat} (hb : b < 21) (h : ksn.getLsbD b = true) :
    ksnFrom ksn (b + 1) ||| (cursorBelow (b + 1)).setWidth 64 = ksnFrom ksn b := by
  rw [setWidth_cursorBelow hb (by decide)]
  apply BitVec.eq_of_getLsbD_eq
  intro i hi
  simp only [BitVec.getLsbD_or, getLsbD_ksnFrom, BitVec.getLsbD_twoPow]
  grind

theorem ksnFrom_of_clear {ksn : Ksn} {b : Nat} (h : ksn.getLsbD b = false) : ksnFrom ksn (b + 1) = ksnFrom ksn b := by
  apply BitVec.eq_of_getLsbD_eq
  intro i hi
  simp only [getLsbD_ksnFrom]
  grind

/-- One iteration goes on to the next counter bit (R165). -/
theorem walkIteration_walkAt {b : Nat} (hb : b < 21) (ksn : Ksn) (cur : Key) :
    walkIteration ksn (walkAt ksn (b + 1) cur) =
      if ksn.getLsbD b then (generateKey cur (ksnFrom ksn b)).bind fun k => .ret (walkAt ksn b k)
      else .ret (walkAt ksn b cur) := by
  simp only [walkIteration, walkAt, walkBitSet_cursorBelow hb, cursorBelow_shift hb]
  cases hbit : ksn.getLsbD b with
  | true => simp only [if_true, ksnFrom_of_set hb hbit]
  | false => simp only [reduceCtorEq, if_false, ksnFrom_of_clear hbit]

/-- The iterations are the tree walk, and leave the registers of a walk that is done (R171 (d), (e)). -/
theorem walkIterations_walkAt {b : Nat} (hb : b ≤ 21) (ksn : Ksn) (cur : Key) :
    walkIterations ksn b (walkAt ksn b cur) = (treeWalk ksn b cur).bind fun k => .ret (walkAt ksn 0 k) := by
  induction b generalizing cur with
  | zero => rfl
  | succ b ih =>
    rw [walkIterations, walkIteration_walkAt hb, treeWalk]
    split
    · simp only [Prog.bind_assoc, Prog.ret_bind, ih (Nat.le_of_lt hb)]
      rfl
    · exact ih (Nat.le_of_lt hb) cur

/-- The walk of deriveKey starts with all 21 bits to come (R165, R166). -/
theorem walkAt_start (ksn : Ksn) (cur : Key) :
    { kreg := walkKsnReg ksn, cur := cur, sr := shiftRegMask } = walkAt ksn 21 cur := by
  rw [walkKsnReg_eq_ksnFrom]
  rfl

/-- Settles O60: the 21 iterations from the top counter bit. -/
theorem walkIsTheTreeWalk : Obligations.WalkIsTheTreeWalk := by
  intro ipek n
  rw [deriveKey, walkAt_start, walkIterations_walkAt (le_refl 21), Prog.bind_assoc]
  exact Prog.bind_ret _

/-- Settles O59: no counter bit is left to come. -/
theorem walkEndsWithTheKsn : Obligations.WalkEndsWithTheKsn := by
  intro ad ipek n w h
  rw [show 0x100000#21 = shiftRegMask from rfl, walkAt_start, walkIterations_walkAt (le_refl 21), Prog.eval_bind] at h
  cases hk : (treeWalk n 21 ipek).eval ad with
  | error x => simp [hk] at h
  | ok k =>
    obtain rfl : walkAt n 0 k = w := by simpa [hk] using h
    exact ⟨(ksnFrom_zero n).trans (BitVec.setWidth_eq_extractLsb' (by decide)), rfl⟩

/-! The tree walk. -/

/-- The tree walk reads the KSN's low 64 bits only (R171 (a)). -/
theorem treeWalk_congr {n m : Ksn} (h : n.setWidth 64 = m.setWidth 64) {b : Nat} (hb : b ≤ 64) (k : Key) :
    treeWalk n b k = treeWalk m b k := by
  induction b generalizing k with
  | zero => rfl
  | succ b ih =>
    have hbit : n.getLsbD b = m.getLsbD b := by
      have hbit := congrArg (BitVec.getLsbD · b) h
      simpa [BitVec.getLsbD_setWidth, Nat.lt_of_succ_le hb] using hbit
    have hrest : treeWalk n b = treeWalk m b := funext (ih (Nat.le_of_succ_le hb))
    rw [treeWalk, treeWalk, h, hbit, hrest]

/-- With no bit set in the counter the tree walk does nothing (R171 (b)). -/
theorem treeWalk_of_clear {n : Ksn} {b : Nat} (h : ∀ i < b, n.getLsbD i = false) (k : Key) : treeWalk n b k = .ret k := by
  induction b with
  | zero => rfl
  | succ b ih =>
    rw [treeWalk, if_neg (by simp [h b (Nat.lt_succ_self b)])]
    exact ih fun i hi => h i (Nat.lt_succ_of_lt hi)

/-- Settles O57: the tree walk reads no more than the low 64 bits, and does nothing with the counter clear. -/
theorem walkReadsOnlyTheLowBits : Obligations.WalkReadsOnlyTheLowBits := by
  refine ⟨fun ipek n m h => ?_, fun ipek n h => ?_⟩
  · rw [walkIsTheTreeWalk, walkIsTheTreeWalk]
    rw [← BitVec.setWidth_eq_extractLsb' (by decide), ← BitVec.setWidth_eq_extractLsb' (by decide)] at h
    exact treeWalk_congr h (by decide) ipek
  · rw [walkIsTheTreeWalk]
    refine treeWalk_of_clear (fun i hi => ?_) ipek
    have hbit := congrArg (BitVec.getLsbD · i) h
    simpa [BitVec.getLsbD_extractLsb', hi] using hbit

/-- The one-way compression of R174, with the key in its halves. -/
theorem encryptRegister_eq (key : Key) (reg : Block) :
    encryptRegister key reg = .call (.desE (hi64 key) (lo64 key ^^^ reg)) fun c => .ret (lo64 key ^^^ c) := by
  have hlo : (key &&& ls16Mask).setWidth 64 = lo64 key := by
    rw [BitVec.setWidth_and, show ls16Mask.setWidth 64 = BitVec.allOnes 64 by decide, BitVec.and_allOnes]
    exact BitVec.setWidth_eq_extractLsb' (by decide)
  have hhi : ((key &&& ms16Mask) >>> 64).setWidth 64 = hi64 key := by
    have hmask : ms16Mask = BitVec.allOnes 128 <<< 64 := by decide
    apply BitVec.eq_of_getLsbD_eq
    intro i hi
    rw [hi64, hmask]
    simp only [BitVec.getLsbD_setWidth, BitVec.getLsbD_ushiftRight, BitVec.getLsbD_and, BitVec.getLsbD_shiftLeft,
      BitVec.getLsbD_allOnes, BitVec.getLsbD_extractLsb']
    grind
  rw [encryptRegister, hlo, hhi]

/-- generateKey sends two requests, left first (R172). -/
theorem generateKey_eq (key : Key) (reg : Block) :
    generateKey key reg =
      .call (.desE (hi64 (key ^^^ keyMask)) (lo64 (key ^^^ keyMask) ^^^ reg)) fun a =>
        .call (.desE (hi64 key) (lo64 key ^^^ reg)) fun b =>
          .ret ((lo64 (key ^^^ keyMask) ^^^ a) ++ (lo64 key ^^^ b)) := by
  simp only [generateKey, encryptRegister_eq, Prog.call_bind, Prog.ret_bind]

/-! The requests of the walk under an adapter that answers every request (R150). -/

section
variable {ad : Request → Response} (had : ∀ q, ∃ r, ad q = .ok r)
include had

theorem Prog.eval_eq_ok {α : Type} (p : Prog α) : ∃ a, p.eval ad = .ok a := by
  induction p with
  | ret a => exact ⟨a, rfl⟩
  | call q k ih =>
    obtain ⟨r, hr⟩ := had q
    rw [Prog.eval_call, hr]
    exact ih r

theorem length_requests_generateKey (key : Key) (reg : Block) : ((generateKey key reg).requests ad).length = 2 := by
  obtain ⟨a, ha⟩ := had (.desE (hi64 (key ^^^ keyMask)) (lo64 (key ^^^ keyMask) ^^^ reg))
  obtain ⟨b, hb⟩ := had (.desE (hi64 key) (lo64 key ^^^ reg))
  simp only [generateKey_eq, Prog.requests, ha, hb, List.length_cons, List.length_nil]

theorem length_requests_treeWalk (n : Ksn) (b : Nat) (k : Key) :
    ((treeWalk n b k).requests ad).length = 2 * (List.range b).countP fun i => n.getLsbD i := by
  induction b generalizing k with
  | zero => rfl
  | succ b ih =>
    rw [treeWalk, List.range_succ, List.countP_append, List.countP_singleton]
    cases n.getLsbD b with
    | true =>
      obtain ⟨k', hk'⟩ := Prog.eval_eq_ok had (generateKey k (((n.setWidth 64) >>> b) <<< b))
      rw [if_pos rfl, if_pos rfl, Prog.requests_bind, hk', List.length_append, length_requests_generateKey had, ih]
      omega
    | false => exact ih k

end

/-- Settles O58: the requests of the tree walk over the 21 counter bits. -/
theorem walkRequestsTwicePerCounterBit : Obligations.WalkRequestsTwicePerCounterBit := by
  intro ad ipek n had
  rw [walkIsTheTreeWalk]
  exact length_requests_treeWalk had n 21 ipek

end Sys2Proof.Machine

/-! PROOFS. The engine's steps in the phases IPEK_L, IPEK_R, WALK, GEN and EREG (41_ipek_walk.md R162, R163, R167, R168, R173, R175): the action of
each phase, and where the answers it has had bring it to. -/

namespace Sys2Proof.Machine

/-- Mapping the value of a computation leaves its requests as they are. -/
theorem Prog.resume_bind_ret {α β : Type} (p : Prog α) (f : α → β) (rs : List Block) :
    (p.bind fun a => .ret (f a)).resume rs = (p.resume rs).bind fun a => .ret (f a) := by
  induction rs generalizing p with
  | nil => rfl
  | cons r rs ih =>
    cases p with
    | ret a => simp
    | call q k => exact ih (k r)

section
variable {α β : Type} {p : Prog α} {rs : List Block}

theorem Prog.resume_bind_ret_of_call {q : Request} {k : Block → Prog α} (h : p.resume rs = .call q k) (f : α → β) :
    (p.bind fun a => .ret (f a)).resume rs = .call q fun r => (k r).bind fun a => .ret (f a) := by
  rw [Prog.resume_bind_ret, h, Prog.call_bind]

theorem Prog.resume_bind_ret_of_ret {a : α} (h : p.resume rs = .ret a) (f : α → β) :
    (p.bind fun a => .ret (f a)).resume rs = .ret (f a) := by
  rw [Prog.resume_bind_ret, h, Prog.ret_bind]

end

/-! The actions of the phases. -/

/-- The registers of the walk in a state (R44). -/
def State.walkRegs (s : State) : WalkRegs := { kreg := s.work.kreg, cur := s.work.cur, sr := s.work.sr }

/-- The state with the registers of the walk written (R167). -/
def State.walked (s : State) (w : WalkRegs) : State :=
  { s with work := { s.work with kreg := w.kreg, cur := w.cur, sr := w.sr } }

/-- The end of an iteration: the next one, or, with the cursor past bit 0, what follows the walk (R167, R168). -/
def State.walkNext (s : State) (w : WalkRegs) : StepOutcome :=
  if w.sr = 0 then (s.walked w).afterWalk else .next (s.walked w)

section
variable {s : State}

theorem State.walkNext_last {w : WalkRegs} (h : w.sr = 0) : s.walkNext w = (s.walked w).afterWalk := if_pos h

theorem State.walkNext_goesOn {w : WalkRegs} (h : w.sr ≠ 0) : s.walkNext w = .next (s.walked w) := if_neg h

theorem phaseAction_ipekL (hph : s.work.ph = .ipekL) :
    phaseAction s = .call (.tdesE s.ops.kIn (ipekRegister s.ops.ksn)) fun c =>
      .ret (.next { s with work := { s.work with tl := c, ph := .ipekR } }) := by
  rw [phaseAction, hph]
  rfl

theorem phaseAction_ipekR_completes (hph : s.work.ph = .ipekR) (hopc : s.work.opc = 0x01) :
    phaseAction s = .call (.tdesE (s.ops.kIn ^^^ keyMask) (ipekRegister s.ops.ksn)) fun c =>
      .ret (.next (s.complete (some (s.work.tl ++ c)))) := by
  simp only [phaseAction, hph, phaseIpekR, if_pos hopc]
  rfl

theorem phaseAction_ipekR_walks (hph : s.work.ph = .ipekR) (hopc : s.work.opc ≠ 0x01) :
    phaseAction s = .call (.tdesE (s.ops.kIn ^^^ keyMask) (ipekRegister s.ops.ksn)) fun c =>
      .ret (.next { s with work := { s.work with
        cur := s.work.tl ++ c, tl := 0, kreg := walkKsnReg s.ops.ksn, sr := shiftRegMask, ph := .walk } }) := by
  simp only [phaseAction, hph, phaseIpekR, if_neg hopc]
  rfl

theorem phaseAction_walk (hph : s.work.ph = .walk) :
    phaseAction s = (walkIteration s.ops.ksn s.walkRegs).bind fun w => .ret (s.walkNext w) := by
  rw [phaseAction, hph]
  rfl

theorem phaseAction_gen (hph : s.work.ph = .gen) :
    phaseAction s = (generateKey s.ops.kIn s.ops.reg).bind fun k => .ret (.next (s.complete (some k))) := by
  rw [phaseAction, hph]
  rfl

theorem phaseAction_ereg (hph : s.work.ph = .ereg) :
    phaseAction s = (encryptRegister s.ops.kIn s.ops.reg).bind fun b => .ret (.next (s.complete (some (0#64 ++ b)))) := by
  have hwide (b : Block) : b.setWidth 128 = 0#64 ++ b := BitVec.setWidth_eq_append (by decide)
  simp only [phaseAction, hph, phaseEreg, hwide]

/-! The engine's step (R135, R141). -/

/-- In the default schedule the engine steps while busy with no request pending (R130, R135). -/
theorem step_engine (hin : s.inputs = []) (hb : s.busy = true) (hpend : s.pend = none) : step s = engineStep s :=
  (step_no_input hin).trans (agentStep_busy hpend hb _)

theorem engineStep_sends {p : Prog StepOutcome} {q : Request} {k : Block → Prog StepOutcome}
    (hp : phaseAction { s with answers := [] } = p) (h : p.resume s.answers = .call q k) : engineStep s = .next (s.send q) := by
  simp [engineStep, hp, h]

theorem engineStep_ends {p : Prog StepOutcome} {o : StepOutcome} (hp : phaseAction { s with answers := [] } = p)
    (h : p.resume s.answers = .ret o) : engineStep s = o := by
  simp [engineStep, hp, h]

end

/-- Settles O15: each phase sends one request, and ends with its answer. -/
theorem ipekPhases : Obligations.IpekPhases := by
  intro s c hin hb hpend
  rw [step_engine hin hb hpend, ← walkKsnReg_eq]
  refine ⟨fun hph ha => ?_, fun hph ha => ?_, fun hph ha => ?_, fun hph ha hopc => ?_, fun hph ha hopc => ?_⟩
  · exact engineStep_sends (phaseAction_ipekL hph) (by rw [ha]; rfl)
  · exact engineStep_ends (phaseAction_ipekL hph) (by rw [ha]; rfl)
  · by_cases hopc : s.work.opc = 0x01
    · exact engineStep_sends (phaseAction_ipekR_completes hph hopc) (by rw [ha]; rfl)
    · exact engineStep_sends (phaseAction_ipekR_walks hph hopc) (by rw [ha]; rfl)
  · exact engineStep_ends (phaseAction_ipekR_completes hph hopc) (by rw [ha]; rfl)
  · exact engineStep_ends (phaseAction_ipekR_walks hph hopc) (by rw [ha]; rfl)

/-- Settles O20: the requests of generateKey and of encryptRegister, and their values. -/
theorem genAndEregPhases : Obligations.GenAndEregPhases := by
  intro s a b hin hb hpend
  rw [step_engine hin hb hpend]
  refine ⟨fun hph ha => ?_, fun hph ha => ?_, fun hph ha => ?_, fun hph ha => ?_, fun hph ha => ?_⟩
  · exact engineStep_sends (phaseAction_gen hph) (by rw [ha, generateKey_eq]; rfl)
  · exact engineStep_sends (phaseAction_gen hph) (by rw [ha, generateKey_eq]; rfl)
  · exact engineStep_ends (phaseAction_gen hph) (by rw [ha, generateKey_eq]; rfl)
  · exact engineStep_sends (phaseAction_ereg hph) (by rw [ha, encryptRegister_eq]; rfl)
  · exact engineStep_ends (phaseAction_ereg hph) (by rw [ha, encryptRegister_eq]; rfl)

/-! The phase WALK. -/

/-- The counter bit under the cursor, as R167 tests it. -/
theorem walkBitSet_iff (sr : Cursor) (ksn : Ksn) :
    walkBitSet sr ksn = true ↔ (sr.setWidth 80 &&& ksn &&& 0x1FFFFF#80) ≠ 0 := by
  simp [walkBitSet, reg3Mask]

section
variable {ksn : Ksn} {w : WalkRegs}

theorem walkIteration_of_clear (h : ¬walkBitSet w.sr ksn) : walkIteration ksn w = .ret { w with sr := w.sr >>> 1 } :=
  if_neg h

theorem walkIteration_of_set (h : walkBitSet w.sr ksn) :
    walkIteration ksn w = (generateKey w.cur (w.kreg ||| w.sr.setWidth 64)).bind fun k =>
      .ret { kreg := w.kreg ||| w.sr.setWidth 64, cur := k, sr := w.sr >>> 1 } :=
  if_pos h

end

section
variable {s : State} (hph : s.work.ph = .walk)
include hph

theorem engineStep_walk_sends {q : Request} {k : Block → Prog WalkRegs}
    (h : (walkIteration s.ops.ksn s.walkRegs).resume s.answers = .call q k) : engineStep s = .next (s.send q) :=
  engineStep_sends (phaseAction_walk hph) (Prog.resume_bind_ret_of_call h _)

theorem engineStep_walk_ends {w : WalkRegs} (h : (walkIteration s.ops.ksn s.walkRegs).resume s.answers = .ret w) :
    engineStep s = State.walkNext { s with answers := [] } w :=
  engineStep_ends (phaseAction_walk hph) (Prog.resume_bind_ret_of_ret h _)

end

/-- Settles O16: the iteration's requests, and its end with the cursor not yet past bit 0. (The model's iteration has the name `walkIteration`.) -/
theorem walkIteration_holds : Obligations.WalkIteration := by
  intro s a b hin hb hpend hph hsr
  dsimp only
  rw [step_engine hin hb hpend, ← walkBitSet_iff]
  have hset (h : walkBitSet s.work.sr s.ops.ksn = true) := walkIteration_of_set (w := s.walkRegs) h
  simp only [generateKey_eq] at hset
  refine ⟨fun h ha => ?_, fun h ha => ?_, fun h ha => ?_, fun h ha => ?_⟩
  · have hclear := walkIteration_of_clear (w := s.walkRegs) h
    rw [engineStep_walk_ends hph (by rw [hclear, ha]; rfl), State.walkNext_goesOn (by exact hsr), ← ha]
    rfl
  · exact engineStep_walk_sends hph (by rw [hset h, ha]; rfl)
  · exact engineStep_walk_sends hph (by rw [hset h, ha]; rfl)
  · rw [engineStep_walk_ends hph (by rw [hset h, ha]; rfl), State.walkNext_goesOn (by exact hsr)]
    rfl

/-! The end of the walk, by command and variant (R168; 42_session_variants.md R197). -/

section
variable {s : State}

theorem State.afterWalk_derives (h : s.work.opc = 0x02) : s.afterWalk = .next (s.complete (some s.work.cur)) := if_pos h

theorem State.afterWalk_session (h : s.work.opc ∈ [0x05#8, 0x06#8, 0x07#8, 0x08#8, 0x09#8]) :
    s.afterWalk = .next s.variantStep := by
  have hderive : s.work.opc ≠ 0x02 := fun h2 => by simp [h2] at h
  rw [State.afterWalk, if_neg hderive, if_pos (opcode_bounds_of_walks (List.mem_cons_of_mem _ h) hderive)]

/-- SESSION_PEK, and SESSION_KEY with PIN. -/
theorem State.afterWalk_pek (h : s.work.opc = 0x05#8 ∨ s.work.opc = 0x07#8 ∧ s.work.var = .pin) :
    s.afterWalk = .next (s.complete (some (s.work.cur ^^^ pekMask))) := by
  have hpin : s.work.pinPath = true := by rcases h with h | ⟨h, hv⟩ <;> simp [Working.pinPath, *]
  have hopc : s.work.opc = 0x05#8 ∨ s.work.opc = 0x07#8 := h.imp_right And.left
  rw [State.afterWalk_session (by rcases hopc with h | h <;> simp [h]), State.variantStep, if_pos hpin]
  exact congrArg _ (if_pos hopc)

/-- ENCRYPT and DECRYPT with PIN. -/
theorem State.afterWalk_message (h : s.work.opc = 0x08#8 ∨ s.work.opc = 0x09#8) (hv : s.work.var = .pin) :
    s.afterWalk = .next (State.dataInit { s with work := { s.work with sk := s.work.cur ^^^ pekMask } }) := by
  have hpin : s.work.pinPath = true := by rcases h with h | h <;> simp [Working.pinPath, *]
  have hopc : ¬(s.work.opc = 0x05#8 ∨ s.work.opc = 0x07#8) := by rcases h with h | h <;> simp [h]
  rw [State.afterWalk_session (by rcases h with h | h <;> simp [h]), State.variantStep, if_pos hpin]
  exact congrArg _ (if_neg hopc)

/-- SESSION_DEK, and the Data variant. -/
theorem State.afterWalk_dek
    (h : s.work.opc = 0x06#8 ∨ (s.work.opc = 0x07#8 ∨ s.work.opc = 0x08#8 ∨ s.work.opc = 0x09#8) ∧ s.work.var = .data) :
    s.afterWalk = .next { s with work := { s.work with cur := s.work.cur ^^^ dekMask, ph := .dekL } } := by
  have hdata : ¬s.work.pinPath = true := by rcases h with h | ⟨h | h | h, hv⟩ <;> simp [Working.pinPath, *]
  rw [State.afterWalk_session (by rcases h with h | ⟨h | h | h, -⟩ <;> simp [h]), State.variantStep, if_neg hdata]

end

/-- Settles O17: the iteration ends with the cursor past bit 0, and the same step does what follows the walk. -/
theorem walkEndAndVariantStep : Obligations.WalkEndAndVariantStep := by
  intro s w hin hb hpend hph hend hsr
  dsimp only
  have hafter : step s = (State.walked { s with answers := [] } { w with sr := 0 }).afterWalk := by
    rw [step_engine hin hb hpend, engineStep_walk_ends hph hend, State.walkNext_last hsr, ← hsr]
  exact ⟨fun h => hafter.trans (State.afterWalk_derives h), fun h => hafter.trans (State.afterWalk_pek (.inl h)),
    fun h => hafter.trans (State.afterWalk_dek (.inl h)), fun h hv => hafter.trans (State.afterWalk_pek (.inr ⟨h, hv⟩)),
    fun h hv => hafter.trans (State.afterWalk_message h hv), fun h hv => hafter.trans (State.afterWalk_dek (.inr ⟨h, hv⟩))⟩

end Sys2Proof.Machine

/-! PROOFS. From issue to completion in the default schedule (40_command_lifecycle.md R148, R150), for the commands of 41_ipek_walk.md: one rule runs a
phase action, with its answers or to the first failing request, and a command is its phase actions one after another. -/

namespace Sys2Proof.Machine

/-! A machine that has ended stays as it is (R151). -/

section
variable {s t : State}

theorem step_ended (h : s.ended) : step s = .next s := by
  obtain ⟨hin, hb, hpend⟩ := h
  exact (step_no_input hin).trans (agentStep_idle hpend hb _)

theorem runSteps_ended (h : s.ended) (n : Nat) : runSteps n s = .next s := by
  induction n with
  | zero => rfl
  | succ n ih => simpa only [runSteps, step_ended h] using ih

theorem runSteps_succ (h : step s = .next t) (n : Nat) : runSteps (n + 1) s = runSteps n t := by
  simp only [runSteps, h]

/-- A run to an end may be given more steps. -/
theorem runSteps_of_le {n m : Nat} (hnm : n ≤ m) (ht : t.ended) (h : runSteps n s = .next t) : runSteps m s = .next t := by
  induction n generalizing s m with
  | zero => exact Host.Outcome.next.inj h ▸ runSteps_ended ht m
  | succ n ih =>
    cases m with
    | zero => exact absurd hnm (Nat.not_succ_le_zero n)
    | succ m =>
      cases hs : step s with
      | next u =>
        rw [runSteps_succ hs] at h ⊢
        exact ih (Nat.le_of_succ_le_succ hnm) h
      | fault f => simp [runSteps, hs] at h
      | refused r => simp [runSteps, hs] at h

end

/-! One phase action (R135, R141, R143). -/

/-- A command in progress between two phase actions, in the default schedule: no input left and every request answered. -/
structure State.BetweenActions (s : State) : Prop where
  noInput : s.inputs = []
  busy : s.busy = true
  noRequest : s.pend = none
  notSilent : s.silent = false
  noAnswers : s.answers = []

/-- The end of the command in progress in `s`: `fin` of its value, or the error completion with the first failing request's code (R137, R143). -/
def State.endsAs {β : Type} (s : State) (fin : β → State) (e : Except FailCode β) : State :=
  match e with
  | .ok b => fin b
  | .error x => s.raise .adapterFailure s.work.opc x

section
variable {α β : Type} {s : State}

/-- An action that ends writes working registers, and the command is between two actions again. -/
theorem State.BetweenActions.writes (h : s.BetweenActions) (w : Working) : State.BetweenActions { s with work := w } :=
  ⟨h.noInput, h.busy, h.noRequest, h.notSilent, h.noAnswers⟩

/-- Of the working registers the end of a command depends on OPC alone. -/
theorem State.endsAs_writes {w : Working} (hopc : w.opc = s.work.opc) (fin : β → State) (e : Except FailCode β) :
    State.endsAs { s with work := w } fin e = s.endsAs fin e := by
  cases e with
  | ok b => rfl
  | error x => exact congrArg (s.raise .adapterFailure · x) hopc

/-- The state with answers to its phase action. -/
def State.withAnswers (s : State) (rs : List Block) : State := { s with answers := rs }

theorem State.BetweenActions.withAnswers_nil (h : s.BetweenActions) : s.withAnswers [] = s := by
  rw [State.withAnswers, ← h.noAnswers]

theorem State.BetweenActions.step_withAnswers (h : s.BetweenActions) (rs : List Block) :
    step (s.withAnswers rs) = engineStep (s.withAnswers rs) := step_engine h.noInput h.busy h.noRequest

theorem State.BetweenActions.phaseAction_withAnswers (h : s.BetweenActions) (rs : List Block) :
    phaseAction { s.withAnswers rs with answers := [] } = phaseAction s := congrArg phaseAction h.withAnswers_nil

/-- The action has ended (R135). -/
theorem State.BetweenActions.step_ends (h : s.BetweenActions) {rs : List Block} {o : StepOutcome}
    (ho : (phaseAction s).resume rs = .ret o) : step (s.withAnswers rs) = o :=
  (h.step_withAnswers rs).trans (engineStep_ends (h.phaseAction_withAnswers rs) ho)

section
variable {rs : List Block} {q : Request} {k : Block → Prog StepOutcome}

/-- The next request is sent in one step and answered in another (R141). -/
theorem State.BetweenActions.runSteps_request (h : s.BetweenActions) (hq : (phaseAction s).resume rs = .call q k) (n : Nat) :
    runSteps (n + 2) (s.withAnswers rs) = runSteps n (((s.withAnswers rs).send q).adapterStep q) := by
  have hsend := (h.step_withAnswers rs).trans (engineStep_sends (h.phaseAction_withAnswers rs) hq)
  have hanswer : step ((s.withAnswers rs).send q) = .next (((s.withAnswers rs).send q).adapterStep q) :=
    (step_no_input (s := (s.withAnswers rs).send q) h.noInput).trans
      (agentStep_pending (s := (s.withAnswers rs).send q) rfl h.notSilent _)
  rw [runSteps_succ hsend, runSteps_succ hanswer]

theorem State.BetweenActions.adapterStep_ok (h : s.BetweenActions) {r : Block} (hr : s.adapter q = .ok r) :
    ((s.withAnswers rs).send q).adapterStep q = s.withAnswers (rs ++ [r]) := by
  rw [State.adapterStep_ok (s := (s.withAnswers rs).send q) hr]
  simp only [State.send, State.withAnswers, h.noRequest]

theorem State.BetweenActions.adapterStep_fail (h : s.BetweenActions) {x : FailCode} (hx : s.adapter q = .fail x) :
    ((s.withAnswers rs).send q).adapterStep q = s.raise .adapterFailure s.work.opc x := by
  rw [State.adapterStep_fail (s := (s.withAnswers rs).send q) hx]
  simp only [State.raise, State.scrub, State.send, State.withAnswers, h.noRequest]

end

variable {fin : β → State}

theorem State.BetweenActions.endsAs_ended (h : s.BetweenActions) (hfin : ∀ b, (fin b).ended) (e : Except FailCode β) :
    (s.endsAs fin e).ended := by
  cases e with
  | ok b => exact hfin b
  | error x => exact ⟨h.noInput, rfl, h.noRequest⟩

variable {p : Prog α} {f : α → Prog β} {g : α → StepOutcome} {m n : Nat}

/-- The rest `p` of a phase action, which ends as `g` says, and then what follows in `n` steps: with m requests the action takes 2 m + 1 steps
(R150). -/
theorem State.BetweenActions.runSteps_resumed (h : s.BetweenActions) {rs : List Block}
    (hact : (phaseAction s).resume rs = p.bind fun a => .ret (g a)) (hp : p.AsksAtMost m) (hfin : ∀ b, (fin b).ended)
    (hnext : ∀ a, p.Yields a → ∃ t, g a = .next t ∧ runSteps n t = .next (s.endsAs fin ((f a).eval s.adapter))) :
    runSteps (n + 2 * m + 1) (s.withAnswers rs) = .next (s.endsAs fin ((p.bind f).eval s.adapter)) := by
  have hend := h.endsAs_ended hfin
  induction p generalizing rs m with
  | ret a =>
    obtain ⟨t, hg, ht⟩ := hnext a rfl
    rw [runSteps_succ ((h.step_ends hact).trans hg)]
    exact runSteps_of_le (Nat.le_add_right n _) (hend _) ht
  | call q k ih =>
    obtain ⟨m, rfl, hk⟩ := hp
    rw [show n + 2 * (m + 1) + 1 = n + 2 * m + 1 + 2 by omega, h.runSteps_request hact, Prog.call_bind, Prog.eval_call]
    cases hq : s.adapter q with
    | ok r =>
      rw [h.adapterStep_ok hq]
      refine ih r ?_ (hk r) fun a ha => hnext a ⟨r, ha⟩
      rw [Prog.resume_append, hact]
      rfl
    | fail x =>
      rw [h.adapterStep_fail hq]
      exact runSteps_ended (hend (.error x)) _

/-- A whole phase action. -/
theorem State.BetweenActions.runSteps_action (h : s.BetweenActions) (hact : phaseAction s = p.bind fun a => .ret (g a))
    (hp : p.AsksAtMost m) (hfin : ∀ b, (fin b).ended)
    (hnext : ∀ a, p.Yields a → ∃ t, g a = .next t ∧ runSteps n t = .next (s.endsAs fin ((f a).eval s.adapter))) :
    runSteps (n + 2 * m + 1) s = .next (s.endsAs fin ((p.bind f).eval s.adapter)) := by
  have hrun := h.runSteps_resumed (rs := []) hact hp hfin hnext
  rwa [h.withAnswers_nil] at hrun

/-- A phase action with one request. -/
theorem State.BetweenActions.runSteps_oneRequest (h : s.BetweenActions) {q : Request} {g : Block → StepOutcome} {f : Block → Prog β}
    (hact : phaseAction s = .call q fun r => .ret (g r)) (hfin : ∀ b, (fin b).ended)
    (hnext : ∀ r, ∃ t, g r = .next t ∧ runSteps n t = .next (s.endsAs fin ((f r).eval s.adapter))) :
    runSteps (n + 3) s = .next (s.endsAs fin ((Prog.call q f).eval s.adapter)) :=
  h.runSteps_action (p := .call q .ret) (m := 1) hact (by simp) hfin fun r _ => hnext r

/-- The last phase action of a command. -/
theorem State.BetweenActions.runSteps_lastAction (h : s.BetweenActions) {fin : α → State}
    (hact : phaseAction s = p.bind fun a => .ret (.next (fin a))) (hp : p.AsksAtMost m) (hfin : ∀ a, (fin a).ended) :
    runSteps (2 * m + 1) s = .next (s.endsAs fin (p.eval s.adapter)) := by
  have hrun := h.runSteps_action (n := 0) (f := .ret) hact hp hfin fun a _ => ⟨_, rfl, rfl⟩
  rwa [Prog.bind_ret, Nat.zero_add] at hrun

end

/-! The commands. -/

/-- A command starts between two phase actions. -/
theorem commandStart_betweenActions {i : Instr} (hi : i ≠ .clear) {s : State} (h : s.quiet) :
    (commandStart i s.clearOnIssue).BetweenActions := by
  obtain ⟨hin, hpend, hsilent, hans⟩ := h
  cases i with
  | clear => exact absurd rfl hi
  | _ => exact ⟨hin, rfl, hpend, hsilent, hans⟩

/-- The end of a command issued in `s` whose RESULT is `key` of its value (R136, R137). -/
def State.issueEnd {β : Type} (s : State) (opc : BitVec 8) (key : β → Key) (e : Except FailCode β) : State :=
  match e with
  | .ok b => s.clearOnIssue.completed (key b) []
  | .error x => { s.issueFailed .adapterFailure opc with adapterCode := x }

/-- The normal completion with `key` of the value in RESULT (R136). -/
def State.completesWith {β : Type} (s : State) (key : β → Key) (b : β) : State := s.complete (some (key b))

theorem State.BetweenActions.completesWith_ended {β : Type} {s : State} (h : s.BetweenActions) (key : β → Key) (b : β) :
    (s.completesWith key b).ended := ⟨h.noInput, rfl, h.noRequest⟩

/-- An accepted command ends as its phase actions, run from its start, do. -/
theorem exec_ends {β : Type} {i : Instr} (hi : i ≠ .clear) {s : State} (ha : s.accepts i) {key : β → Key} {e : Except FailCode β}
    {n : Nat} (hrun : runSteps n (commandStart i s.clearOnIssue) =
      .next ((commandStart i s.clearOnIssue).endsAs ((commandStart i s.clearOnIssue).completesWith key) e)) :
    ∃ t, exec i s = .next t ∧ runSteps n t = .next (s.issueEnd i.opcode key e) := by
  refine ⟨_, exec_starts ha.1 ha.2, hrun.trans ?_⟩
  cases i with
  | clear => exact absurd rfl hi
  | _ => cases e <;> rfl

section
variable {s : State}

/-- GENERATE_KEY is one phase action (41_ipek_walk.md R173). -/
theorem exec_generateKey_ends (ha : s.accepts .generateKey) (hq : s.quiet) :
    ∃ t, exec .generateKey s = .next t ∧
      runSteps 5 t = .next (s.issueEnd 0x03 id ((generateKey s.ops.kIn s.ops.reg).eval s.adapter)) := by
  have h := commandStart_betweenActions (i := .generateKey) (by decide) hq
  have hasks : (generateKey s.ops.kIn s.ops.reg).AsksAtMost 2 := by simp [generateKey_eq]
  exact exec_ends (by decide) ha (h.runSteps_lastAction (phaseAction_gen rfl) hasks (h.completesWith_ended id))

/-- ENCRYPT_REGISTER is one phase action (41_ipek_walk.md R175). -/
theorem exec_encryptRegister_ends (ha : s.accepts .encryptRegister) (hq : s.quiet) :
    ∃ t, exec .encryptRegister s = .next t ∧
      runSteps 3 t = .next (s.issueEnd 0x04 (0#64 ++ ·) ((encryptRegister s.ops.kIn s.ops.reg).eval s.adapter)) := by
  have h := commandStart_betweenActions (i := .encryptRegister) (by decide) hq
  have hasks : (encryptRegister s.ops.kIn s.ops.reg).AsksAtMost 1 := by simp [encryptRegister_eq]
  exact exec_ends (by decide) ha (h.runSteps_lastAction (phaseAction_ereg rfl) hasks (h.completesWith_ended (0#64 ++ ·)))

/-- IPEK_R of CREATE_IPEK (41_ipek_walk.md R163). -/
theorem State.BetweenActions.runSteps_ipekR (h : s.BetweenActions) (hph : s.work.ph = .ipekR) (hopc : s.work.opc = 0x01) :
    runSteps 3 s = .next (s.endsAs (s.completesWith id) ((Prog.call (.tdesE (s.ops.kIn ^^^ keyMask) (ipekRegister s.ops.ksn))
      fun right => .ret (s.work.tl ++ right)).eval s.adapter)) :=
  h.runSteps_oneRequest (n := 0) (phaseAction_ipekR_completes hph hopc) (h.completesWith_ended id) fun _ => ⟨_, rfl, rfl⟩

/-- IPEK_L and IPEK_R of CREATE_IPEK compute createIPEK (41_ipek_walk.md R160, R162, R163). -/
theorem State.BetweenActions.runSteps_ipekL (h : s.BetweenActions) (hph : s.work.ph = .ipekL) (hopc : s.work.opc = 0x01) :
    runSteps 6 s = .next (s.endsAs (s.completesWith id) ((createIPEK s.ops.kIn s.ops.ksn).eval s.adapter)) := by
  refine h.runSteps_oneRequest (n := 3) (phaseAction_ipekL hph) (h.completesWith_ended id) fun left => ⟨_, rfl, ?_⟩
  have hright := (h.writes { s.work with tl := left, ph := .ipekR }).runSteps_ipekR rfl hopc
  exact hright.trans (congrArg Host.Outcome.next (State.endsAs_writes rfl _ _))

/-- CREATE_IPEK is the phases IPEK_L and IPEK_R (41_ipek_walk.md R161). -/
theorem exec_createIpek_ends (ha : s.accepts .createIpek) (hq : s.quiet) :
    ∃ t, exec .createIpek s = .next t ∧
      runSteps 6 t = .next (s.issueEnd 0x01 id ((createIPEK s.ops.kIn s.ops.ksn).eval s.adapter)) :=
  have h := commandStart_betweenActions (i := .createIpek) (by decide) hq
  exec_ends (by decide) ha (h.runSteps_ipekL rfl rfl)

end

/-! The walk (41_ipek_walk.md R167, R168). -/

/-- The iterations from bit `b`, under the cursor, down to bit 0, 5 steps each at most, and then what follows in `n` steps. -/
theorem State.BetweenActions.runSteps_walk {β : Type} {s : State} (h : s.BetweenActions) (hph : s.work.ph = .walk) {b : Nat}
    (hb : s.work.sr.toNat.log2 = b) {fin : β → State} (hfin : ∀ v, (fin v).ended) {f : WalkRegs → Prog β} {n : Nat}
    (hafter : ∀ w, w.sr = 0 → ∃ t, (s.walked w).afterWalk = .next t ∧ runSteps n t = .next (s.endsAs fin ((f w).eval s.adapter))) :
    runSteps (n + 5 * (b + 1)) s =
      .next (s.endsAs fin (((walkIterations s.ops.ksn (b + 1) s.walkRegs).bind f).eval s.adapter)) := by
  induction b generalizing s with
  | zero =>
    have hlast : s.work.sr >>> 1 = 0 := by
      by_contra hmore
      simp [log2_shift hmore] at hb
    rw [walkIterations, Prog.bind_assoc]
    refine h.runSteps_action (phaseAction_walk hph) (walkIteration_asksAtMost _ _) hfin fun w hw => ?_
    have hsr : w.sr = 0 := (walkIteration_sr hw).trans hlast
    obtain ⟨t, ht, hrun⟩ := hafter w hsr
    exact ⟨t, (State.walkNext_last hsr).trans ht, hrun⟩
  | succ b ih =>
    have hmore : s.work.sr >>> 1 ≠ 0 := fun hlast => by simp [log2_last hlast] at hb
    rw [walkIterations, Prog.bind_assoc, show n + 5 * (b + 1 + 1) = n + 5 * (b + 1) + 2 * 2 + 1 by omega]
    refine h.runSteps_action (phaseAction_walk hph) (walkIteration_asksAtMost _ _) hfin fun w hw => ?_
    have hsr : w.sr = s.work.sr >>> 1 := walkIteration_sr hw
    have hlog : w.sr.toNat.log2 = b := by rw [hsr]; exact Nat.succ.inj ((log2_shift hmore).symm.trans hb)
    have hends (e : Except FailCode β) : (s.walked w).endsAs fin e = s.endsAs fin e := State.endsAs_writes rfl fin e
    refine ⟨s.walked w, State.walkNext_goesOn (hsr ▸ hmore), ?_⟩
    rw [← hends]
    refine ih (h.writes _) hph hlog fun w' hw' => ?_
    obtain ⟨t, ht, hrun⟩ := hafter w' hw'
    exact ⟨t, ht, hrun.trans (congrArg Host.Outcome.next (hends _).symm)⟩

/-- DERIVE_KEY is the walk from K_IN (41_ipek_walk.md R170). -/
theorem exec_deriveKey_ends {s : State} (ha : s.accepts .deriveKey) (hq : s.quiet) :
    ∃ t, exec .deriveKey s = .next t ∧
      runSteps 105 t = .next (s.issueEnd 0x02 id ((deriveKey s.ops.kIn s.ops.ksn).eval s.adapter)) :=
  have h := commandStart_betweenActions (i := .deriveKey) (by decide) hq
  have hcursor : shiftRegMask.toNat.log2 = 20 := by decide
  exec_ends (by decide) ha (h.runSteps_walk (n := 0) (f := fun w => .ret w.cur) rfl hcursor (h.completesWith_ended id)
    fun _ _ => ⟨_, State.afterWalk_derives rfl, rfl⟩)

/-! The statements: `issueEnd` is the end that they write out, by the value of the command's function. -/

/-- Settles O26: the phases IPEK_L and IPEK_R. -/
theorem createIpekDelivers : Obligations.CreateIpekDelivers := by
  intro s ha hq
  obtain ⟨t, hx, ht⟩ := exec_createIpek_ends ha hq
  refine ⟨t, hx, ht.trans ?_⟩
  cases (createIPEK s.ops.kIn s.ops.ksn).eval s.adapter <;> rfl

/-- Settles O27: the 21 iterations of the walk. -/
theorem deriveKeyDelivers : Obligations.DeriveKeyDelivers := by
  intro s ha hq
  obtain ⟨t, hx, ht⟩ := exec_deriveKey_ends ha hq
  refine ⟨t, hx, ht.trans ?_⟩
  cases (deriveKey s.ops.kIn s.ops.ksn).eval s.adapter <;> rfl

/-- Settles O28: the phase GEN, and the phase EREG. -/
theorem registerCommandsDeliver : Obligations.RegisterCommandsDeliver := by
  refine fun s hq => ⟨fun ha => ?_, fun ha => ?_⟩
  · obtain ⟨t, hx, ht⟩ := exec_generateKey_ends ha hq
    refine ⟨t, hx, ht.trans ?_⟩
    cases (generateKey s.ops.kIn s.ops.reg).eval s.adapter <;> rfl
  · obtain ⟨t, hx, ht⟩ := exec_encryptRegister_ends ha hq
    refine ⟨t, hx, ht.trans ?_⟩
    cases (encryptRegister s.ops.kIn s.ops.reg).eval s.adapter <;> rfl

end Sys2Proof.Machine

/-! PROOFS. The session keys (42_session_variants.md R190 to R197): the engine's steps in the phases DEK_L and DEK_R, and the session
commands from issue to completion in the default schedule. -/

namespace Sys2Proof.Machine

/-! The actions of DEK_L and DEK_R (R193). -/

/-- The end of DEK_R: the completion with the session key, or `dataInit()` (R193). -/
def State.dekNext (s : State) (right : Block) : State :=
  if s.work.opc = 0x06 ∨ s.work.opc = 0x07 then s.complete (some (s.work.tl ++ right))
  else { s with work := { s.work with sk := s.work.tl ++ right, tl := 0, bi := 0, cv := 0, ph := .data } }

section
variable {s : State}

theorem State.dekNext_completes (h : s.work.opc = 0x06#8 ∨ s.work.opc = 0x07#8) (right : Block) :
    s.dekNext right = s.complete (some (s.work.tl ++ right)) := if_pos h

theorem State.dekNext_message (h : s.work.opc = 0x08#8 ∨ s.work.opc = 0x09#8) (right : Block) :
    s.dekNext right = { s with work := { s.work with sk := s.work.tl ++ right, tl := 0, bi := 0, cv := 0, ph := .data } } :=
  if_neg (by rcases h with h | h <;> simp [h])

theorem phaseAction_dekL (hph : s.work.ph = .dekL) :
    phaseAction s = .call (.tdesE s.work.cur (hi64 s.work.cur)) fun c =>
      .ret (.next { s with work := { s.work with tl := c, ph := .dekR } }) := by
  rw [phaseAction, hph]
  rfl

theorem phaseAction_dekR (hph : s.work.ph = .dekR) :
    phaseAction s = .call (.tdesE s.work.cur (lo64 s.work.cur)) fun c => .ret (.next (s.dekNext c)) := by
  simp only [phaseAction, hph, phaseDekR, State.dekNext]
  split <;> rfl

theorem engineStep_dekR_ends (hph : s.work.ph = .dekR) {c : Block} (ha : s.answers = [c]) :
    engineStep s = .next (State.dekNext { s with answers := [] } c) :=
  engineStep_ends (phaseAction_dekR hph) (by rw [ha]; rfl)

end

/-- Settles O18: each phase sends one request, and ends with its answer. -/
theorem dekPhases : Obligations.DekPhases := by
  intro s c hin hb hpend
  dsimp only
  rw [step_engine hin hb hpend]
  refine ⟨fun hph ha => ?_, fun hph ha => ?_, fun hph ha => ?_, fun hph ha hopc => ?_, fun hph ha hopc => ?_⟩
  · exact engineStep_sends (phaseAction_dekL hph) (by rw [ha]; rfl)
  · exact engineStep_ends (phaseAction_dekL hph) (by rw [ha]; rfl)
  · exact engineStep_sends (phaseAction_dekR hph) (by rw [ha]; rfl)
  · exact (engineStep_dekR_ends hph ha).trans (congrArg _ (State.dekNext_completes (s := { s with answers := [] }) hopc c))
  · exact (engineStep_dekR_ends hph ha).trans (congrArg _ (State.dekNext_message (s := { s with answers := [] }) hopc c))

/-! The phases of a session command, in the default schedule. What follows a phase is a hypothesis wherever ENCRYPT and DECRYPT go on otherwise. -/

/-- The registers at the start of the walk from an IPEK (41_ipek_walk.md R166). -/
def walkStart (ksn : Ksn) (ipek : Key) : WalkRegs := { kreg := walkKsnReg ksn, cur := ipek, sr := shiftRegMask }

/-- The state in which the walk from an IPEK starts once IPEK_R has ended (41_ipek_walk.md R163, R166). -/
def State.walksFrom (s : State) (ipek : Key) : State :=
  { s with work := { s.work with cur := ipek, tl := 0, kreg := walkKsnReg s.ops.ksn, sr := shiftRegMask, ph := .walk } }

section
variable {β : Type} {s : State} {fin : β → State} {n : Nat}

/-- Two phase actions with one request each, the first of which writes working registers other than OPC. -/
theorem State.BetweenActions.runSteps_twoRequests (h : s.BetweenActions) {q q' : Request} {w : Block → Working}
    {g : Block → Block → State} {f : Block → Block → Prog β}
    (hact : phaseAction s = .call q fun left => .ret (.next { s with work := w left })) (hopc : ∀ left, (w left).opc = s.work.opc)
    (hact' : ∀ left, phaseAction { s with work := w left } = .call q' fun right => .ret (.next (g left right)))
    (hfin : ∀ b, (fin b).ended)
    (hnext : ∀ left right, runSteps n (g left right) = .next (s.endsAs fin ((f left right).eval s.adapter))) :
    runSteps (n + 6) s = .next (s.endsAs fin ((Prog.call q fun left => .call q' (f left)).eval s.adapter)) := by
  refine h.runSteps_oneRequest (n := n + 3) hact hfin fun left => ⟨_, rfl, ?_⟩
  have hends (e : Except FailCode β) : State.endsAs { s with work := w left } fin e = s.endsAs fin e :=
    State.endsAs_writes (hopc left) fin e
  rw [← hends]
  exact (h.writes (w left)).runSteps_oneRequest (hact' left) hfin fun right =>
    ⟨_, rfl, (hnext left right).trans (congrArg Host.Outcome.next (hends _).symm)⟩

/-- IPEK_L and IPEK_R compute createIPEK for a command that walks on (41_ipek_walk.md R160, R162, R163). -/
theorem State.BetweenActions.runSteps_ipek_walks (h : s.BetweenActions) (hph : s.work.ph = .ipekL) (hopc : s.work.opc ≠ 0x01)
    (hfin : ∀ b, (fin b).ended) {f : Key → Prog β}
    (hwalk : ∀ ipek, runSteps n (s.walksFrom ipek) = .next (s.endsAs fin ((f ipek).eval s.adapter))) :
    runSteps (n + 6) s = .next (s.endsAs fin (((createIPEK s.ops.kIn s.ops.ksn).bind f).eval s.adapter)) :=
  h.runSteps_twoRequests (phaseAction_ipekL hph) (fun _ => rfl) (fun _ => phaseAction_ipekR_walks rfl hopc) hfin
    fun left right => hwalk (left ++ right)

/-- The 21 iterations of the walk compute deriveKey (41_ipek_walk.md R165, R167). -/
theorem State.BetweenActions.runSteps_deriveKey (h : s.BetweenActions) (hph : s.work.ph = .walk) {ipek : Key}
    (hregs : s.walkRegs = walkStart s.ops.ksn ipek) (hfin : ∀ b, (fin b).ended) {f : Key → Prog β}
    (hafter : ∀ w : WalkRegs, ∃ t, (s.walked w).afterWalk = .next t ∧
      runSteps n t = .next (s.endsAs fin ((f w.cur).eval s.adapter))) :
    runSteps (n + 105) s = .next (s.endsAs fin (((deriveKey ipek s.ops.ksn).bind f).eval s.adapter)) := by
  have hcursor : s.work.sr.toNat.log2 = 20 := by rw [show s.work.sr = shiftRegMask from congrArg WalkRegs.sr hregs]; decide
  rw [deriveKey, Prog.bind_assoc, ← walkStart, ← hregs]
  exact h.runSteps_walk hph hcursor hfin (f := fun w => f w.cur) fun w _ => hafter w

/-- DEK_L and DEK_R compute the DEK diversification of the working key (R192, R193). -/
theorem State.BetweenActions.runSteps_diversify (h : s.BetweenActions) (hph : s.work.ph = .dekL) (hfin : ∀ b, (fin b).ended)
    {f : Key → Prog β}
    (hnext : ∀ left right, runSteps n (State.dekNext { s with work := { s.work with tl := left, ph := .dekR } } right) =
      .next (s.endsAs fin ((f (left ++ right)).eval s.adapter))) :
    runSteps (n + 6) s = .next (s.endsAs fin (((diversify s.work.cur).bind f).eval s.adapter)) :=
  h.runSteps_twoRequests (phaseAction_dekL hph) (fun _ => rfl) (fun _ => phaseAction_dekR rfl) hfin hnext

end

/-! The session key from an IPEK on, when the command completes with it (R190, R192, R197). -/

/-- DEK_L and DEK_R of SESSION_DEK and SESSION_KEY (R193). -/
theorem State.BetweenActions.runSteps_dek {s : State} (h : s.BetweenActions) (hph : s.work.ph = .dekL)
    (hopc : s.work.opc = 0x06#8 ∨ s.work.opc = 0x07#8) :
    runSteps 6 s = .next (s.endsAs (s.completesWith id) ((diversify s.work.cur).eval s.adapter)) := by
  have hrun := h.runSteps_diversify (n := 0) (f := .ret) hph (h.completesWith_ended id) fun left right =>
    congrArg Host.Outcome.next
      (State.dekNext_completes (s := { s with work := { s.work with tl := left, ph := .dekR } }) hopc right)
  rwa [Prog.bind_ret] at hrun

section
variable {s : State} (h : s.BetweenActions) (hph : s.work.ph = .walk) {ipek : Key} (hregs : s.walkRegs = walkStart s.ops.ksn ipek)
include h hph hregs

/-- The PIN variant is applied in the step that ends the walk. -/
theorem State.BetweenActions.runSteps_sessionPek (hopc : s.work.opc = 0x05#8 ∨ s.work.opc = 0x07#8 ∧ s.work.var = .pin) :
    runSteps 105 s = .next (s.endsAs (s.completesWith id) ((createSessionKeyPEK ipek s.ops.ksn).eval s.adapter)) :=
  h.runSteps_deriveKey (n := 0) hph hregs (h.completesWith_ended id) fun w => ⟨_, State.afterWalk_pek (s := s.walked w) hopc, rfl⟩

/-- The Data variant is the walk and then DEK_L and DEK_R. -/
theorem State.BetweenActions.runSteps_sessionDek (hopc : s.work.opc = 0x06#8 ∨ s.work.opc = 0x07#8 ∧ s.work.var = .data) :
    runSteps 111 s = .next (s.endsAs (s.completesWith id) ((createSessionKeyDEK ipek s.ops.ksn).eval s.adapter)) := by
  refine h.runSteps_deriveKey (n := 6) hph hregs (h.completesWith_ended id) fun w =>
    ⟨_, State.afterWalk_dek (s := s.walked w) (hopc.imp_right (And.imp_left .inl)), ?_⟩
  have hdek := (h.writes { (s.walked w).work with cur := w.cur ^^^ dekMask, ph := .dekL }).runSteps_dek rfl (hopc.imp_right And.left)
  exact hdek.trans (congrArg Host.Outcome.next (State.endsAs_writes rfl _ _))

end

/-! The commands. -/

section
variable {s : State}

/-- SESSION_PEK is the walk from K_IN (R191). -/
theorem exec_sessionPek_ends (ha : s.accepts .sessionPek) (hq : s.quiet) :
    ∃ t, exec .sessionPek s = .next t ∧
      runSteps 105 t = .next (s.issueEnd 0x05 id ((createSessionKeyPEK s.ops.kIn s.ops.ksn).eval s.adapter)) :=
  have h := commandStart_betweenActions (i := .sessionPek) (by decide) hq
  exec_ends (by decide) ha (h.runSteps_sessionPek rfl rfl (.inl rfl))

/-- SESSION_DEK is the walk from K_IN, DEK_L and DEK_R (R194). -/
theorem exec_sessionDek_ends (ha : s.accepts .sessionDek) (hq : s.quiet) :
    ∃ t, exec .sessionDek s = .next t ∧
      runSteps 111 t = .next (s.issueEnd 0x06 id ((createSessionKeyDEK s.ops.kIn s.ops.ksn).eval s.adapter)) :=
  have h := commandStart_betweenActions (i := .sessionDek) (by decide) hq
  exec_ends (by decide) ha (h.runSteps_sessionDek rfl rfl (.inl rfl))

/-- The phases of SESSION_KEY compute createSessionKey (R195, R197); with PIN there is no DEK_L and no DEK_R. -/
theorem State.BetweenActions.runSteps_sessionKey (h : s.BetweenActions) (hph : s.work.ph = .ipekL) (hopc : s.work.opc = 0x07#8) :
    runSteps 117 s = .next (s.endsAs (s.completesWith id)
      ((createSessionKey s.ops.kIn s.ops.ksn s.work.var).eval s.adapter)) := by
  have hfin := h.completesWith_ended id
  refine h.runSteps_ipek_walks (n := 111) hph (by simp [hopc]) hfin fun ipek => ?_
  have hwalk : (s.walksFrom ipek).BetweenActions := h.writes _
  have hends (e : Except FailCode Key) : (s.walksFrom ipek).endsAs (s.completesWith id) e = s.endsAs (s.completesWith id) e :=
    State.endsAs_writes rfl _ e
  rw [← hends]
  cases hv : s.work.var with
  | pin =>
    exact runSteps_of_le (by decide) (hwalk.endsAs_ended hfin _) (hwalk.runSteps_sessionPek rfl rfl (.inr ⟨hopc, hv⟩))
  | data => exact hwalk.runSteps_sessionDek rfl rfl (.inr ⟨hopc, hv⟩)

/-- SESSION_KEY derives the IPEK from K_IN first (R196). -/
theorem exec_sessionKey_ends {v : Variant} (ha : s.accepts (.sessionKey v)) (hq : s.quiet) :
    ∃ t, exec (.sessionKey v) s = .next t ∧
      runSteps 117 t = .next (s.issueEnd 0x07 id ((createSessionKey s.ops.kIn s.ops.ksn v).eval s.adapter)) :=
  have h := commandStart_betweenActions (i := .sessionKey v) (by simp) hq
  exec_ends (by simp) ha (h.runSteps_sessionKey rfl rfl)

end

/-- Settles O29: the three commands need the same operands, and end as their functions say. -/
theorem sessionCommandsDeliver : Obligations.SessionCommandsDeliver := by
  intro s ha hq ends
  have hends (opc : BitVec 8) (p : Prog Key) : s.issueEnd opc id (p.eval s.adapter) = ends opc p := by
    dsimp only [ends]
    cases p.eval s.adapter <;> rfl
  simp only [← hends]
  exact ⟨exec_sessionPek_ends ha hq, exec_sessionDek_ends ha hq, fun v => exec_sessionKey_ends ha hq⟩

end Sys2Proof.Machine

/-! PROOFS. Messages (43_data_cipher.md R210 to R218): the engine's steps in the phase DATA, and ENCRYPT and DECRYPT from issue to completion in the
default schedule; then what their values are: DECRYPT undoes ENCRYPT, and DOUT is 0 past the message. -/

namespace Sys2Proof.Machine

/-! The action of DATA (R213, R214). -/

section
variable {s : State}

/-- The block is not the last. -/
theorem State.dataBlock_goesOn (h : ¬(s.work.bi + 1).toNat = s.ops.len.toNat / 8) (out chain : Block) :
    s.dataBlock out chain = { s with
      dout := s.dout.write64 (8 * s.work.bi.toNat) out
      work := { s.work with cv := chain, bi := s.work.bi + 1 } } := if_neg h

/-- The last block completes the command. -/
theorem State.dataBlock_last (h : (s.work.bi + 1).toNat = s.ops.len.toNat / 8) (out chain : Block) :
    s.dataBlock out chain = s.completed s.result (s.dout.write64 (8 * s.work.bi.toNat) out) := if_pos h

section
variable (hph : s.work.ph = .data) (hbuf : 8 * s.work.bi.toNat + 8 ≤ s.params.dbufBytes)
include hph hbuf

theorem phaseAction_encrypt (hopc : s.work.opc = 0x08) :
    phaseAction s = .call (.tdesE s.work.sk (s.din.read64 (8 * s.work.bi.toNat) ^^^ s.work.cv)) fun c =>
      .ret (.next (s.dataBlock c c)) := by
  rw [phaseAction, hph]
  exact phaseData_encrypt hbuf hopc

theorem phaseAction_decrypt (hopc : s.work.opc = 0x09) :
    phaseAction s = .call (.tdesD s.work.sk (s.din.read64 (8 * s.work.bi.toNat))) fun r =>
      .ret (.next (s.dataBlock (r ^^^ s.work.cv) (s.din.read64 (8 * s.work.bi.toNat)))) := by
  rw [phaseAction, hph]
  exact phaseData_decrypt hbuf hopc

variable {x : Block} (ha : s.answers = [x])
include ha

theorem engineStep_encrypt_ends (hopc : s.work.opc = 0x08) :
    engineStep s = .next (State.dataBlock { s with answers := [] } x x) :=
  engineStep_ends (phaseAction_encrypt hph hbuf hopc) (by rw [ha]; rfl)

theorem engineStep_decrypt_ends (hopc : s.work.opc = 0x09) :
    engineStep s =
      .next (State.dataBlock { s with answers := [] } (x ^^^ s.work.cv) (s.din.read64 (8 * s.work.bi.toNat))) :=
  engineStep_ends (phaseAction_decrypt hph hbuf hopc) (by rw [ha]; rfl)

end

end

/-- Settles O19: each block is one request, and its answer ends in the block's DATA step. -/
theorem dataPhases : Obligations.DataPhases := by
  intro s x hin hb hpend hph hbuf
  dsimp only
  rw [step_engine hin hb hpend]
  have goesOn := State.dataBlock_goesOn (s := { s with answers := [] })
  have completes := State.dataBlock_last (s := { s with answers := [] })
  refine ⟨fun hopc ha => ?_, fun hopc ha hmore => ?_, fun hopc ha hlast => ?_, fun hopc ha => ?_, fun hopc ha hmore => ?_,
    fun hopc ha hlast => ?_⟩
  · exact engineStep_sends (phaseAction_encrypt hph hbuf hopc) (by rw [ha]; rfl)
  · exact (engineStep_encrypt_ends hph hbuf ha hopc).trans (congrArg _ (goesOn hmore _ _))
  · exact (engineStep_encrypt_ends hph hbuf ha hopc).trans (congrArg _ (completes hlast _ _))
  · exact engineStep_sends (phaseAction_decrypt hph hbuf hopc) (by rw [ha]; rfl)
  · exact (engineStep_decrypt_ends hph hbuf ha hopc).trans (congrArg _ (goesOn hmore _ _))
  · exact (engineStep_decrypt_ends hph hbuf ha hopc).trans (congrArg _ (completes hlast _ _))

/-! The phases of a message command, in the default schedule. -/

/-- The normal completion of the command in progress with what it delivers (R136): DOUT holds the message, or nothing. -/
def State.delivers (s : State) (c : Completion) : State :=
  match c with
  | .key k => State.complete { s with dout := [] } (some k)
  | .message d => State.complete { s with dout := d } none
  | .nothing => State.complete { s with dout := [] } none

section
variable {s : State}

/-- Neither DOUT so far nor the working registers other than OPC matter to the end of a command. -/
theorem State.endsAs_delivers_writes {d : Memory} {w : Working} (hopc : w.opc = s.work.opc) (e : Except FailCode Completion) :
    State.endsAs { s with dout := d, work := w } (State.delivers { s with dout := d, work := w }) e = s.endsAs s.delivers e := by
  cases e with
  | ok c => cases c <;> rfl
  | error x => exact congrArg (s.raise .adapterFailure · x) hopc

/-- From its start the command ends, with its function's value, in the end that R148 gives it. -/
theorem State.endsAs_delivers_start {i : Instr} (hi : i ≠ .clear) :
    (commandStart i s.clearOnIssue).endsAs (commandStart i s.clearOnIssue).delivers ((commandProgram i s.ops s.din).eval s.adapter) =
      s.commandEnd i := by
  unfold State.commandEnd
  cases i with
  | clear => exact absurd rfl hi
  | _ =>
    cases (commandProgram _ s.ops s.din).eval s.adapter with
    | ok c => cases c <;> rfl
    | error x => rfl

variable (h : s.BetweenActions)
include h

theorem State.BetweenActions.delivers_ended (c : Completion) : (s.delivers c).ended := by
  cases c <;> exact ⟨h.noInput, rfl, h.noRequest⟩

/-- A DATA step writes DOUT and working registers, and the command is between two actions again. -/
theorem State.BetweenActions.writesBlock (d : Memory) (w : Working) : State.BetweenActions { s with dout := d, work := w } :=
  ⟨h.noInput, h.busy, h.noRequest, h.notSilent, h.noAnswers⟩

variable (hopc : s.work.opc = 0x08 ∨ s.work.opc = 0x09) (hlen : s.lenLegal)
include hopc hlen

/-- One block of a message, and then what follows it in `n` steps (R213, R214). -/
theorem State.BetweenActions.runSteps_block (hph : s.work.ph = .data) (hbi : s.work.bi.toNat < s.ops.len.toNat / 8) {n : Nat}
    (hnext : ∀ out chain, runSteps n (s.dataBlock out chain) =
      .next (s.endsAs s.delivers ((s.restAfter (.next (s.dataBlock out chain))).eval s.adapter))) :
    runSteps (n + 3) s = .next (s.endsAs s.delivers (s.rest.eval s.adapter)) := by
  obtain ⟨-, -, hmax⟩ := hlen
  have hbuf : 8 * s.work.bi.toNat + 8 ≤ s.params.dbufBytes := by omega
  have hrest : s.rest = messageRest s s.work.sk s.work.cv s.work.bi.toNat s.dout := by simp only [State.rest, hph]
  simp only [State.restAfter_dataBlock hph h.busy hbi] at hnext
  rw [hrest, messageRest_next _ _ hbi]
  rcases hopc with hopc | hopc
  · rw [if_pos hopc]
    exact h.runSteps_oneRequest (phaseAction_encrypt hph hbuf hopc) h.delivers_ended fun c => ⟨_, rfl, hnext c c⟩
  · rw [if_neg (by simp [hopc])]
    exact h.runSteps_oneRequest (phaseAction_decrypt hph hbuf hopc) h.delivers_ended fun r => ⟨_, rfl, hnext _ _⟩

/-- The last `k + 1` blocks of a message, 3 steps each. -/
theorem State.BetweenActions.runSteps_blocks (hph : s.work.ph = .data) {k : Nat}
    (hk : s.work.bi.toNat + (k + 1) = s.ops.len.toNat / 8) :
    runSteps (3 * (k + 1)) s = .next (s.endsAs s.delivers (s.rest.eval s.adapter)) := by
  induction k generalizing s with
  | zero =>
    have hbi : s.work.bi.toNat < s.ops.len.toNat / 8 := by omega
    have hlast : (s.work.bi + 1).toNat = s.ops.len.toNat / 8 := (blockIndex_succ hbi).trans hk
    refine h.runSteps_block (n := 0) hopc hlen hph hbi fun out chain => ?_
    have hend (d : Memory) : s.restAfter (.next (s.completed s.result d)) = .ret (.message d) :=
      State.restAfter_message hph { s with dout := d }
    rw [State.dataBlock_last hlast, hend]
    rfl
  | succ k ih =>
    have hbi : s.work.bi.toNat < s.ops.len.toNat / 8 := by omega
    have hnext := blockIndex_succ hbi
    refine h.runSteps_block (n := 3 * (k + 1)) hopc hlen hph hbi fun out chain => ?_
    rw [State.dataBlock_goesOn (by omega), State.restAfter_goesOn (by exact h.busy)]
    have hk' : (s.work.bi + 1).toNat + (k + 1) = s.ops.len.toNat / 8 := by omega
    have hbusy := h.writesBlock (s.dout.write64 (8 * s.work.bi.toNat) out) { s.work with cv := chain, bi := s.work.bi + 1 }
    refine (ih hbusy hopc hlen hph hk').trans ?_
    exact congrArg Host.Outcome.next (State.endsAs_delivers_writes rfl _)

/-- A message from block 0 on (R212). -/
theorem State.BetweenActions.runSteps_message {w : Working} (hph : w.ph = .data) (hwopc : w.opc = s.work.opc) (hbi : w.bi = 0)
    (hcv : w.cv = 0) :
    runSteps (3 * (s.ops.len.toNat / 8)) { s with work := w } = .next (s.endsAs s.delivers ((sessionRest s w.sk).eval s.adapter)) := by
  have ⟨_, hmin, _⟩ := hlen
  obtain ⟨k, hk⟩ : ∃ k, s.ops.len.toNat / 8 = k + 1 := ⟨s.ops.len.toNat / 8 - 1, by omega⟩
  have hrest : State.rest { s with work := w } = sessionRest s w.sk := by
    rw [sessionRest, if_pos (by exact hopc)]
    simp only [State.rest, hph, hbi, hcv, messageRest, hwopc]
    rfl
  rw [hk, ← hrest, ← State.endsAs_delivers_writes (d := s.dout) hwopc]
  exact (h.writes w).runSteps_blocks (by rwa [← hwopc] at hopc) hlen hph (by simp [hbi, hk])

/-- DEK_L and DEK_R of ENCRYPT and DECRYPT, and the message (42_session_variants.md R193). -/
theorem State.BetweenActions.runSteps_dekMessage (hph : s.work.ph = .dekL) :
    runSteps (3 * (s.ops.len.toNat / 8) + 6) s =
      .next (s.endsAs s.delivers (((diversify s.work.cur).bind (sessionRest s)).eval s.adapter)) := by
  refine h.runSteps_diversify hph h.delivers_ended fun left right => ?_
  rw [State.dekNext_message (by exact hopc)]
  exact h.runSteps_message hopc hlen rfl rfl rfl rfl

/-- From the walk on, in either variant (42_session_variants.md R193, R197). -/
theorem State.BetweenActions.runSteps_walkRest (hph : s.work.ph = .walk) {ipek : Key}
    (hregs : s.walkRegs = walkStart s.ops.ksn ipek) :
    runSteps (111 + 3 * (s.ops.len.toNat / 8)) s =
      .next (s.endsAs s.delivers (((deriveKey ipek s.ops.ksn).bind (walkRest s)).eval s.adapter)) := by
  have hends := h.endsAs_ended h.delivers_ended
  have hderive : s.work.opc ≠ 0x02 := by rcases hopc with hopc | hopc <;> simp [hopc]
  rw [show 111 + 3 * (s.ops.len.toNat / 8) = 3 * (s.ops.len.toNat / 8) + 6 + 105 by omega]
  refine h.runSteps_deriveKey hph hregs h.delivers_ended fun w => ?_
  rw [walkRest, if_neg hderive]
  cases hv : s.work.var with
  | pin =>
    have hpin : s.work.pinPath = true := by rcases hopc with hopc | hopc <;> simp [Working.pinPath, *]
    rw [if_pos hpin]
    refine ⟨_, State.afterWalk_message (s := s.walked w) hopc hv, ?_⟩
    exact runSteps_of_le (Nat.le_add_right _ 6) (hends _) (h.runSteps_message hopc hlen rfl rfl rfl rfl)
  | data =>
    have hdata : ¬s.work.pinPath = true := by rcases hopc with hopc | hopc <;> simp [Working.pinPath, *]
    rw [if_neg hdata]
    refine ⟨_, State.afterWalk_dek (s := s.walked w) (.inr ⟨.inr hopc, hv⟩), ?_⟩
    have hdek := (h.writes { (s.walked w).work with cur := w.cur ^^^ dekMask, ph := .dekL }).runSteps_dekMessage hopc hlen rfl
    exact hdek.trans (congrArg Host.Outcome.next (State.endsAs_delivers_writes rfl _))

/-- ENCRYPT and DECRYPT from IPEK_L on: at most 25 + n phase actions and 46 + n requests (R150, R215, R216). -/
theorem State.BetweenActions.runSteps_messageCommand (hph : s.work.ph = .ipekL) :
    runSteps (117 + 3 * (s.ops.len.toNat / 8)) s = .next (s.endsAs s.delivers (s.rest.eval s.adapter)) := by
  have hipek : s.work.opc ≠ 0x01 := by rcases hopc with hopc | hopc <;> simp [hopc]
  have hrest : s.rest = (createIPEK s.ops.kIn s.ops.ksn).bind (ipekRest s) := by simp only [State.rest, hph]
  rw [hrest, show 117 + 3 * (s.ops.len.toNat / 8) = 111 + 3 * (s.ops.len.toNat / 8) + 6 by omega]
  refine h.runSteps_ipek_walks hph hipek h.delivers_ended fun ipek => ?_
  rw [ipekRest, if_neg hipek]
  have hwalk : (s.walksFrom ipek).BetweenActions := h.writes _
  exact (hwalk.runSteps_walkRest hopc hlen rfl rfl).trans (congrArg Host.Outcome.next (State.endsAs_delivers_writes rfl _))

end

/-! The end of a message command, by the value of its function. -/

/-- The end of ENCRYPT or DECRYPT issued in `s`: DOUT holds the blocks of its value and 0 elsewhere (R136, R137). -/
def State.messageEnd (s : State) (opc : BitVec 8) (e : Except FailCode (List Block)) : State :=
  match e with
  | .ok bs => s.clearOnIssue.completed 0 (Memory.writeBlocks [] 0 bs)
  | .error x => { s.issueFailed .adapterFailure opc with adapterCode := x }

/-- A message command that has completed has its function's value. -/
theorem State.ok_of_messageEnd_done {s : State} {opc : BitVec 8} {e : Except FailCode (List Block)}
    (h : (s.messageEnd opc e).done = true) : ∃ bs, e = .ok bs := by
  cases e with
  | ok bs => exact ⟨bs, rfl⟩
  | error x => cases h

/-- The function of a message command, whose value it writes to DOUT (R215, R216); no other command has one. -/
def messageProgram (i : Instr) (o : Operands) (din : Memory) : Prog (List Block) :=
  match i with
  | .encrypt v => encryptMessage o.kIn o.ksn (din.blocks 0 (o.len.toNat / 8)) v
  | .decrypt v => decryptMessage o.kIn o.ksn (din.blocks 0 (o.len.toNat / 8)) v
  | _ => .ret []

section
variable {s : State} {v : Variant} {i : Instr} (hi : i = .encrypt v ∨ i = .decrypt v)
include hi

theorem State.commandEnd_message :
    s.commandEnd i = s.messageEnd i.opcode ((messageProgram i s.ops s.din).eval s.adapter) := by
  have hprogram : commandProgram i s.ops s.din =
      (messageProgram i s.ops s.din).bind fun bs => .ret (.message (Memory.writeBlocks [] 0 bs)) := by
    rcases hi with rfl | rfl <;> rfl
  rw [State.commandEnd, hprogram, Prog.eval_bind]
  cases (messageProgram i s.ops s.din).eval s.adapter <;> rfl

/-- ENCRYPT and DECRYPT end as their functions say (R148, R215, R216). -/
theorem exec_message_ends (ha : s.accepts i) (hq : s.quiet) :
    ∃ t, exec i s = .next t ∧ runSteps (117 + 3 * (s.ops.len.toNat / 8)) t =
      .next (s.messageEnd i.opcode ((messageProgram i s.ops s.din).eval s.adapter)) := by
  have hclear : i ≠ .clear := by rcases hi with rfl | rfl <;> simp
  have hneeds : commandNeeds i = Needs.message := by rcases hi with rfl | rfl <;> rfl
  have hlen : s.lenLegal := State.lenLegal_of_issueError (hneeds ▸ ha.2)
  have h := commandStart_betweenActions hclear hq
  have hrest : (commandStart i s.clearOnIssue).rest = commandProgram i s.ops s.din := rest_commandStart hclear rfl
  refine ⟨_, exec_starts ha.1 ha.2, ?_⟩
  rw [← State.commandEnd_message hi, ← State.endsAs_delivers_start hclear, ← hrest]
  rcases hi with rfl | rfl
  · exact h.runSteps_messageCommand (.inl rfl) hlen rfl
  · exact h.runSteps_messageCommand (.inr rfl) hlen rfl

end

/-- Settles O30: ENCRYPT and DECRYPT need the same operands, and `messageEnd` is the end that the statement writes out. -/
theorem messageCommandsDeliver : Obligations.MessageCommandsDeliver := by
  intro s v ha hq n ends
  have hends (opc : BitVec 8) (p : Prog (List Block)) : s.messageEnd opc (p.eval s.adapter) = ends opc p := by
    dsimp only [ends]
    cases p.eval s.adapter <;> rfl
  simp only [← hends]
  exact ⟨exec_message_ends (.inl rfl) ha hq, exec_message_ends (.inr rfl) ha hq⟩

/-! Blocks and bytes of the buffers (20_memory.md R70, R72). -/

@[simp] theorem Memory.length_blocks (m : Memory) (i n : Nat) : (m.blocks i n).length = n := by
  induction n generalizing i with
  | zero => rfl
  | succ n ih => simp [Memory.blocks, ih]

/-- Bytes outside the written blocks read as before. -/
theorem Memory.read_writeBlocks_outside {m : Memory} (h : m.wf = true) {i : Nat} {bs : List Block} {a : Nat}
    (ha : a < 8 * i ∨ 8 * (i + bs.length) ≤ a) : (m.writeBlocks i bs).read a = m.read a := by
  induction bs generalizing m i with
  | nil => rfl
  | cons b bs ih =>
    rw [List.length_cons] at ha
    rw [Memory.writeBlocks, ih (Memory.wf_write64 h _ _) (by omega), Memory.read_write64_outside h _ _ (by omega)]

theorem Memory.read64_writeBlocks_below {m : Memory} (h : m.wf = true) {i j : Nat} (hj : j < i) (bs : List Block) :
    (m.writeBlocks i bs).read64 (8 * j) = m.read64 (8 * j) := by
  induction bs generalizing m i with
  | nil => rfl
  | cons b bs ih =>
    rw [Memory.writeBlocks, ih (Memory.wf_write64 h _ _) (by omega), Memory.read64_write64_apart h _ _ (by omega)]

/-- Written blocks are read back. -/
theorem Memory.blocks_writeBlocks {m : Memory} (h : m.wf = true) (i : Nat) (bs : List Block) :
    (m.writeBlocks i bs).blocks i bs.length = bs := by
  induction bs generalizing m i with
  | nil => rfl
  | cons b bs ih =>
    have h' := Memory.wf_write64 h (8 * i) b
    rw [Memory.writeBlocks, List.length_cons, Memory.blocks, ih h', Memory.read64_writeBlocks_below h' (by omega),
      Memory.read64_write64 h]

/-- The parts of a concatenation are determined by it. -/
theorem append_inj {n m : Nat} {x x' : BitVec n} {y y' : BitVec m} (h : x ++ y = x' ++ y') : x = x' ∧ y = y' :=
  ⟨by simpa only [BitVec.extractLsb'_append_eq_left] using congrArg (BitVec.extractLsb' m n) h,
    by simpa only [BitVec.extractLsb'_append_eq_right] using congrArg (BitVec.extractLsb' 0 m) h⟩

section
variable {m m' : Memory}

/-- Equal words have equal bytes. -/
theorem Memory.read_eq_of_read32_eq {off a : Nat} (h : m.read32 off = m'.read32 off) (ha : off ≤ a ∧ a < off + 4) :
    m.read a = m'.read a := by
  obtain ⟨h, h3⟩ := append_inj h
  obtain ⟨h, h2⟩ := append_inj h
  obtain ⟨h0, h1⟩ := append_inj h
  obtain rfl | rfl | rfl | rfl : a = off ∨ a = off + 1 ∨ a = off + 2 ∨ a = off + 3 := by omega
  all_goals assumption

/-- Equal blocks have equal bytes. -/
theorem Memory.read_eq_of_read64_eq {off a : Nat} (h : m.read64 off = m'.read64 off) (ha : off ≤ a ∧ a < off + 8) :
    m.read a = m'.read a := by
  obtain ⟨hhi, hlo⟩ := append_inj h
  by_cases hword : a < off + 4
  · exact Memory.read_eq_of_read32_eq hhi ⟨ha.1, hword⟩
  · exact Memory.read_eq_of_read32_eq hlo (by omega)

theorem Memory.read_eq_of_blocks_eq {i n a : Nat} (h : m.blocks i n = m'.blocks i n) (ha : 8 * i ≤ a ∧ a < 8 * (i + n)) :
    m.read a = m'.read a := by
  induction n generalizing i with
  | zero => omega
  | succ n ih =>
    obtain ⟨hfirst, hrest⟩ := List.cons.inj h
    by_cases hblock : a < 8 * i + 8
    · exact Memory.read_eq_of_read64_eq hfirst ⟨ha.1, hblock⟩
    · exact ih hrest (by omega)

end

/-- Blocks copied from one buffer into another have the same bytes there. -/
theorem Memory.read_writeBlocks_blocks {d m : Memory} (h : d.wf = true) {i n a : Nat} (ha : 8 * i ≤ a ∧ a < 8 * (i + n)) :
    (d.writeBlocks i (m.blocks i n)).read a = m.read a := by
  have hback := Memory.blocks_writeBlocks h i (m.blocks i n)
  rw [Memory.length_blocks] at hback
  exact Memory.read_eq_of_blocks_eq hback ha

/-! The blocks of a message (R210, R211). -/

section
variable {α β : Type} {ad : Request → Response}

theorem Prog.eval_bind_eq_ok_iff {p : Prog α} {f : α → Prog β} {b : β} :
    (p.bind f).eval ad = .ok b ↔ ∃ a, p.eval ad = .ok a ∧ (f a).eval ad = .ok b := by
  rw [Prog.eval_bind]
  cases p.eval ad <;> simp

theorem Prog.eval_call_eq_ok_iff {q : Request} {k : Block → Prog α} {a : α} :
    (Prog.call q k).eval ad = .ok a ↔ ∃ r, ad q = .ok r ∧ (k r).eval ad = .ok a := by
  rw [Prog.eval_call]
  cases ad q <;> simp

/-- As many blocks as there were. -/
theorem length_of_cbcEncrypt {k : Key} {cv : Block} {ps cs : List Block} (h : (cbcEncrypt k cv ps).eval ad = .ok cs) :
    cs.length = ps.length := by
  induction ps generalizing cv cs with
  | nil => cases h; rfl
  | cons p ps ih =>
    obtain ⟨c, -, h⟩ := Prog.eval_call_eq_ok_iff.mp h
    obtain ⟨cs, hcs, h⟩ := Prog.eval_bind_eq_ok_iff.mp h
    cases h
    simp [ih hcs]

theorem length_of_cbcDecrypt {k : Key} {cv : Block} {ps cs : List Block} (h : (cbcDecrypt k cv cs).eval ad = .ok ps) :
    ps.length = cs.length := by
  induction cs generalizing cv ps with
  | nil => cases h; rfl
  | cons c cs ih =>
    obtain ⟨r, -, h⟩ := Prog.eval_call_eq_ok_iff.mp h
    obtain ⟨ps, hps, h⟩ := Prog.eval_bind_eq_ok_iff.mp h
    cases h
    simp [ih hps]

/-- Under one key and chaining value, decryption gives the blocks back (R217). -/
theorem cbcDecrypt_of_cbcEncrypt (had : ∀ k b c, ad (.tdesE k b) = .ok c → ad (.tdesD k c) = .ok b) {k : Key} {cv : Block}
    {ps cs : List Block} (h : (cbcEncrypt k cv ps).eval ad = .ok cs) : (cbcDecrypt k cv cs).eval ad = .ok ps := by
  induction ps generalizing cv cs with
  | nil => cases h; rfl
  | cons p ps ih =>
    obtain ⟨c, hc, h⟩ := Prog.eval_call_eq_ok_iff.mp h
    obtain ⟨cs, hcs, h⟩ := Prog.eval_bind_eq_ok_iff.mp h
    cases h
    rw [cbcDecrypt, Prog.eval_call_eq_ok_iff]
    refine ⟨_, had _ _ _ hc, Prog.eval_bind_eq_ok_iff.mpr ⟨ps, ih hcs, ?_⟩⟩
    simp

/-- `decrypt` undoes `encrypt`: the session key is the same both ways (R217). -/
theorem decryptMessage_of_encryptMessage (had : ∀ k b c, ad (.tdesE k b) = .ok c → ad (.tdesD k c) = .ok b) {bdk : Key} {ksn : Ksn}
    {v : Variant} {ps cs : List Block} (h : (encryptMessage bdk ksn ps v).eval ad = .ok cs) :
    (decryptMessage bdk ksn cs v).eval ad = .ok ps := by
  obtain ⟨k, hk, hcs⟩ := Prog.eval_bind_eq_ok_iff.mp h
  exact Prog.eval_bind_eq_ok_iff.mpr ⟨k, hk, cbcDecrypt_of_cbcEncrypt had hcs⟩

/-- A message command delivers LEN / 8 blocks. -/
theorem length_of_messageProgram {i : Instr} {v : Variant} (hi : i = .encrypt v ∨ i = .decrypt v) {o : Operands} {din : Memory}
    {bs : List Block} (h : (messageProgram i o din).eval ad = .ok bs) : bs.length = o.len.toNat / 8 := by
  rcases hi with rfl | rfl
  · obtain ⟨k, -, hbs⟩ := Prog.eval_bind_eq_ok_iff.mp h
    rw [length_of_cbcEncrypt hbs, Memory.length_blocks]
  · obtain ⟨k, -, hbs⟩ := Prog.eval_bind_eq_ok_iff.mp h
    rw [length_of_cbcDecrypt hbs, Memory.length_blocks]

end

/-- Settles O36: DOUT holds LEN / 8 blocks, and no more. -/
theorem messageTailIsZero : Obligations.MessageTailIsZero := by
  intro s t u v i _ hi ha hq hx ht hdone
  obtain ⟨t', hx', ht'⟩ := exec_message_ends hi ha hq
  obtain rfl := Host.Outcome.next.inj (hx'.symm.trans hx)
  obtain rfl := Host.Outcome.next.inj (ht'.symm.trans ht)
  obtain ⟨bs, hbs⟩ := State.ok_of_messageEnd_done hdone
  have hlength := length_of_messageProgram hi hbs
  rw [hbs]
  exact ⟨fun a hle => Memory.read_writeBlocks_outside rfl (by omega), rfl⟩

/-- Settles O35: DECRYPT finds ENCRYPT's blocks in DIN, and the operands as they were. -/
theorem decryptUndoesEncrypt : Obligations.DecryptUndoesEncrypt := by
  intro s v _ ha hq had
  obtain ⟨t, hx, ht⟩ := exec_message_ends (.inl rfl) ha hq
  refine ⟨t, _, hx, ht, fun hdone => ?_⟩
  obtain ⟨cs, hcs⟩ := State.ok_of_messageEnd_done hdone
  rw [hcs] at hdone ⊢
  have hlen : s.lenLegal := State.lenLegal_of_issueError ha.2
  have hdin : (Memory.writeBlocks [] 0 cs).blocks 0 (s.ops.len.toNat / 8) = cs := by
    rw [← length_of_messageProgram (.inl rfl) hcs, Memory.blocks_writeBlocks rfl]
  have hps := decryptMessage_of_encryptMessage had hcs
  rw [← hdin] at hps
  obtain ⟨hin, hpend, hsilent, -⟩ := hq
  obtain ⟨t', hx', ht'⟩ := exec_message_ends (i := .decrypt v) (.inr rfl)
    (s := { s.clearOnIssue.completed 0 (Memory.writeBlocks [] 0 cs) with din := Memory.writeBlocks [] 0 cs }) ⟨rfl, ha.2⟩
    ⟨hin, hpend, hsilent, rfl⟩
  rw [show (messageProgram _ _ _).eval _ = _ from hps] at ht'
  refine ⟨t', _, hx', ht', rfl, fun a hlt => ?_⟩
  have ⟨hmod, _, _⟩ := hlen
  exact Memory.read_writeBlocks_blocks rfl (by omega)

end Sys2Proof.Machine

/-! PROOFS. CLEAR and WR_IGN (44_control.md R230, R231; 70_reset_and_hazards.md R284). -/

namespace Sys2Proof.Machine

/-! CLEAR needs no operand, so while idle it is always done, and done again it changes nothing more (R230). -/

theorem exec_clear_idle {s : State} (hb : s.busy = false) : exec .clear s = .next s.clearOnIssue.clearAll :=
  exec_starts hb rfl

theorem State.clearAll_idempotent (s : State) :
    s.clearOnIssue.clearAll.clearOnIssue.clearAll = s.clearOnIssue.clearAll := rfl

theorem State.clearAll_irq (s : State) : s.clearAll.irq = s.irqEn := Bool.and_true s.irqEn

/-- The word of CLEAR is the only legal one with its operation code (30_encoding.md R102, R103). -/
theorem encode_of_clear_opcode {i : Instr} (h : (encode i).extractLsb' 0 8 = 0x0F#8) : encode i = 0x0000000F#32 := by
  have hop : i.opcode = 0x0F#8 := (congrArg Fields.op (fieldsOf_encode i)).symm.trans h
  cases i with
  | clear => rfl
  | _ => exact absurd hop (by simp [Instr.opcode])

/-- Settles O7: CLEAR is done within its issue, ignored while busy, and a legal word with its operation code is its word. -/
theorem clearScrubsEverything : Obligations.ClearScrubsEverything := by
  refine ⟨fun s hb => ⟨exec_clear_idle hb, ?again, s.clearOnIssue.clearAll_irq⟩, fun s hb => ?busy, fun w hop hw => ?illegal⟩
  case again =>
    have hclear := exec_clear_idle (s := s.clearOnIssue.clearAll) hb
    rwa [State.clearAll_idempotent] at hclear
  case busy => exact (exec_eq_issue .clear s).trans (issueCommand_busy hb ..)
  case illegal =>
    cases hd : decode w with
    | error e => exact ⟨e, rfl⟩
    | ok i =>
      obtain rfl := decode_eq_ok_iff.mp hd
      exact absurd (encode_of_clear_opcode hop) hw

/-! WR_IGN once set stays set (R231): what each input but reset and the STATUS write of its bit does keeps it. -/

section
variable {s t : State} (h : s.wrIgn = true)
include h

/-- WR_IGN is cleared by STATUS writes with bit 3 set only (10_state.md R35). -/
theorem State.writeTarget_wrIgn {r : Target} {d : Word} (hack : r = .status → d.getLsbD 3 = false) :
    (s.writeTarget r d).wrIgn = true := by
  cases r with
  | id | param | cmd | errinfo | res | dout | ctrl => exact h
  | status =>
    rw [State.writeTarget, State.writeStatus_eq, hack rfl]
    simpa using h
  | len | kIn | ksn | reg | din => exact State.unlessBusy_induction (P := fun u => u.wrIgn = true) rfl h

theorem State.busAccess_wrIgn {a : Access}
    (hack : ∀ d, Input.access a = hostWr s.params 0x00C d → d.getLsbD 3 = false) : (s.busAccess a).wrIgn = true := by
  obtain ⟨r, hr⟩ | ⟨off, width, r, d, rfl, ht, hw⟩ := s.busAccess_cases a
  · rw [hr]
    exact h
  · rw [hw]
    refine State.writeTarget_wrIgn h fun hstatus => hack d ?_
    obtain ⟨rfl, rfl⟩ := accessTarget_status (hstatus ▸ ht)
    rfl

/-- No command's start writes WR_IGN, CLEAR included (R231). -/
theorem commandStart_wrIgn (i : Instr) : (commandStart i s).wrIgn = true := by
  cases i <;> exact h

theorem issueWord_wrIgn {w : Word} (hs : issueWord w s = .next t) : t.wrIgn = true := by
  obtain ⟨-, hx⟩ | ⟨-, e, failOp, hx⟩ | ⟨-, i, -, -, hx⟩ := issueWord_cases w s
  · exact Host.Outcome.next.inj (hx.symm.trans hs) ▸ rfl
  · exact Host.Outcome.next.inj (hx.symm.trans hs) ▸ h
  · exact Host.Outcome.next.inj (hx.symm.trans hs) ▸ commandStart_wrIgn (s := s.clearOnIssue) h i

theorem hostAccess_wrIgn {a : Access} (hs : hostAccess a s = .next t)
    (hack : ∀ d, Input.access a = hostWr s.params 0x00C d → d.getLsbD 3 = false) : t.wrIgn = true := by
  cases hc : commandWrite s.params a with
  | none => exact Host.Outcome.next.inj ((hostAccess_bus hc).symm.trans hs) ▸ State.busAccess_wrIgn h hack
  | some w => exact issueWord_wrIgn (s := s.respond (some .accepted)) h ((hostAccess_command hc).symm.trans hs)

theorem tick_wrIgn (hs : tick s = .next t) : t.wrIgn = true := by
  obtain ht | move := agentStep_move hs
  · exact Host.Outcome.next.inj ht ▸ h
  · obtain ⟨-, -, -, hwrIgn, -⟩ := move.frame
    exact hwrIgn.trans h

/-- An input that is neither a reset nor the STATUS write of bit 3 keeps WR_IGN set. -/
theorem deliver_wrIgn {x : Input} (hs : deliver x s = .next t) (hreset : x ≠ .reset)
    (hack : ∀ d, x = hostWr s.params 0x00C d → d.getLsbD 3 = false) : t.wrIgn = true := by
  cases x with
  | access a => exact hostAccess_wrIgn h hs hack
  | tick => exact tick_wrIgn h hs
  | poll =>
    obtain rfl := Host.Outcome.next.inj hs
    rw [State.pollStatus_eq]
    exact h
  | noAnswer =>
    obtain rfl := Host.Outcome.next.inj hs
    unfold State.leaveUnanswered
    split <;> exact h
  | lateAnswer => exact Host.Outcome.next.inj hs ▸ h
  | reset => exact absurd rfl hreset

end

/-- Settles O47: an input that does neither would keep WR_IGN set. -/
theorem wrIgnIsSticky : Obligations.WrIgnIsSticky := by
  intro s t x h hs ht
  by_contra hneither
  obtain ⟨hreset, hwrite⟩ := not_or.mp hneither
  have hkept : t.wrIgn = true :=
    deliver_wrIgn (s := s) h hs hreset fun d hx => Bool.eq_false_iff.mpr fun hd => hwrite ⟨d, hx, hd⟩
  exact absurd (hkept.symm.trans ht) (by decide)

end Sys2Proof.Machine

/-! PROOFS. Errors at issue, and what the host can see (60_exceptions.md R245, R258, R260). -/

namespace Sys2Proof.Machine

/-- Settles O9: each cause fails a check of the decoder (30_encoding.md R106), and a word that does not decode ends in ILLEGAL_COMMAND. -/
theorem illegalWordEndsInIllegalCommand : Obligations.IllegalWordEndsInIllegalCommand := by
  intro s w hb op hw
  obtain ⟨reservedBits, reservedOp, variantNotTaken, -⟩ := decodeFollowsTheChecks w
  by_cases hr : w.extractLsb' 9 23 = 0
  · by_cases ho : (1 ≤ op ∧ op ≤ 9) ∨ op = 0x0F
    · obtain ⟨hv, ht⟩ := (hw.resolve_left (not_not.mpr hr)).resolve_left (not_not.mpr ho)
      exact State.after_cmd_illegal hb (variantNotTaken hr ho hv ht)
    · exact State.after_cmd_illegal hb (reservedOp hr ho)
  · exact State.after_cmd_illegal hb (reservedBits hr)

/-! A host read sees the host's view and nothing else: BASE and DBUF_BYTES resolve its address, and the word it gets is made of the view
(R258, R260). -/

theorem windowOffset_congr {p q : Params} (h : p.base = q.base) (addr : Nat) : windowOffset p addr = windowOffset q addr := by
  rw [windowOffset, windowOffset, h]

theorem accessTarget_congr {p q : Params} (h : p.dbufBytes = q.dbufBytes) (off : Nat) (width : AccessWidth) :
    accessTarget p off width = accessTarget q off width := by
  rw [accessTarget, accessTarget, h]

theorem Memory.read32_nil (off : Nat) : Memory.read32 [] off = 0 := by
  simp [Memory.read32]

/-- While busy DOUT reads as the empty buffer does (20_memory.md R81). -/
theorem State.readTarget_dout (s : State) (off : Nat) : s.readTarget (.dout off) = s.hostView.dout.read32 off := by
  simp only [State.readTarget, State.hostView]
  split
  · rw [Memory.read32_nil]
  · rfl

section
variable {s t : State} (h : s.hostView = t.hostView)
include h

theorem State.readTarget_congr (r : Target) : s.readTarget r = t.readTarget r := by
  cases r with
  | id | cmd | kIn => rfl
  | param => exact congrArg (fun v => 0#16 ++ BitVec.ofNat 16 v.dbufBytes) h
  | ctrl => exact congrArg HostView.ctrl h
  | status => exact congrArg HostView.status h
  | len => exact congrArg (BitVec.setWidth 32) (congrArg HostView.len h)
  | errinfo => exact congrArg HostView.errinfo h
  | ksn j => exact congrArg (ksnWord · j) (congrArg HostView.ksn h)
  | reg j => exact congrArg (regWord · j) (congrArg HostView.reg h)
  | res j => exact congrArg (keyWord · j) (congrArg HostView.result h)
  | din off => exact congrArg (Memory.read32 · off) (congrArg HostView.din h)
  | dout off => rw [s.readTarget_dout, t.readTarget_dout, h]

theorem State.busAccess_read_resp_congr (addr : Nat) (width : AccessWidth) :
    (s.busAccess (.read addr width)).resp = (t.busAccess (.read addr width)).resp := by
  have hwindow : windowOffset t.params addr = windowOffset s.params addr :=
    windowOffset_congr (congrArg HostView.base h).symm addr
  have htarget (off : Nat) : accessTarget t.params off width = accessTarget s.params off width :=
    accessTarget_congr (congrArg HostView.dbufBytes h).symm off width
  cases hwin : windowOffset s.params addr with
  | none => rw [State.busAccess_outside hwin, State.busAccess_outside (hwindow.trans hwin), State.respond_resp, State.respond_resp]
  | some off =>
    cases hr : accessTarget s.params off width with
    | none =>
      rw [State.busAccess_error hwin hr, State.busAccess_error (hwindow.trans hwin) ((htarget off).trans hr), State.respond_resp,
        State.respond_resp]
    | some r =>
      rw [State.busAccess_read hwin hr, State.busAccess_read (hwindow.trans hwin) ((htarget off).trans hr), State.respond_resp,
        State.respond_resp, State.readTarget_congr h]

end

/-- Settles O42: window, target and word are those of the host's view. -/
theorem hiddenStateIsUnobservable : Obligations.HiddenStateIsUnobservable :=
  fun _ _ addr width h => State.busAccess_read_resp_congr h addr width

end Sys2Proof.Machine

/-! PROOFS. Reset and the first commands after it (70_reset_and_hazards.md R270 to R272). -/

namespace Sys2Proof.Machine

theorem State.after_reset (s : State) : s.after .reset = .next s.blockReset := rfl

theorem State.after_lateAnswer (s : State) (r : Response) : s.after (.lateAnswer r) = .next s := rfl

/-- Without the host's side the state after reset is the reset state: only the parameters are kept (R270). -/
theorem State.blockReset_withoutHost (s : State) :
    { s.blockReset with inputs := [], resp := none } = { State.reset with params := s.params } := rfl

/-- Settles O13: the step of the reset input is the reset operation, and that of an abandoned request's answer does nothing. -/
theorem resetAtAnyTime : Obligations.ResetAtAnyTime :=
  ⟨fun s => ⟨s.blockReset, s.after_reset, s.blockReset_withoutHost, s.blockReset_busy, s.blockReset_done, s.blockReset_err,
    State.irq_eq_false s.blockReset_done s.blockReset_err, s.blockReset_pend, congrArg Working.ph s.blockReset_work⟩,
    State.after_lateAnswer⟩

/-- At reset no word of K_IN has been written, so the first check of issue fails for every command but CLEAR (R133). -/
theorem State.issueError_reset {i : Instr} (hi : i ≠ .clear) : State.reset.issueError (commandNeeds i) = some .invalidArgument :=
  State.issueError_kIn (commandNeeds_kIn hi) (by decide)

/-- Issue and CLEAR find every register at its reset value already: of what they write only DONE changes (44_control.md R230). -/
theorem State.clearAll_reset : State.reset.clearOnIssue.clearAll = { State.reset with done := true } := rfl

/-- Settles O14: the first check fails for want of K_IN, CLEAR needs no operand, and a word that does not decode fails before any check. -/
theorem afterResetCommandsNeedOperands : Obligations.AfterResetCommandsNeedOperands := by
  have idle : State.reset.busy = false := rfl
  refine ⟨idle, rfl, rfl, State.irq_eq_false rfl rfl, fun i hi => ?commands, ?clear, fun w e hw => ?illegal⟩
  case commands => exact exec_fails idle (State.issueError_reset hi)
  case clear => exact (exec_clear_idle idle).trans (congrArg _ State.clearAll_reset)
  case illegal => exact State.after_cmd_illegal idle hw

end Sys2Proof.Machine
